-- ==== Sys2Proof/Word.lean ====
section
/-! DEFINITION. The widths of the block's values and the words of its request port: bytes and addresses (R8, R12), the
bank-mode names (R24), the requests the caller can send (R6, R13), the two encoded formats BUS and SYS (R80 to R84) and the
pseudo-requests of the notation (R91). -/

namespace Sys2Proof

/-- A bus datum: `DATA_BITS` = 8 (R8). -/
abbrev Byte := BitVec 8

/-- A bus address: `ADDR_BITS` = 16 (R8). -/
abbrev Addr := BitVec 16

/-- `cart.bankMode` (R24): which bank-control rules of 41_bank_controller.md apply. -/
inductive BankMode where
  | none
  | mbc1
  | mbc2
deriving DecidableEq, Repr

/-- The direction bit of a BUS request (R81). -/
inductive Dir where
  | read
  | write
deriving DecidableEq, Repr

/-- One request as the caller sends it (R6, R80), before it is put into words.  The address, data and cycle operands are
natural numbers, so that the caller's contract violations (R88: an address above 0xFFFF, data above 0xFF, a cycle count
above MAX_TICK) can be asked and are answered.  A SYS request carries its kind `S[17:16]`, its operand `S[15:0]`, and beside
the word the cartridge source of a LOAD: `none` is "absent or unreadable" (R100). -/
inductive Request where
  | bus (dir : Dir) (addr : Nat) (data : Nat)
  | sys (kind : BitVec 2) (operand : Nat) (source : Option (List Byte))
deriving DecidableEq, Repr

/-- A request put into words (R80): the BUS transaction word `TW` (27 bits, R83), or the SYS word `S` (18 bits, R84) with
LOAD's byte stream beside it.  The two constructors are the one-bit format tag. -/
inductive Frame where
  | bus (tw : BitVec 27)
  | sys (s : BitVec 18) (source : Option (List Byte))
deriving DecidableEq, Repr

/-- `R addr` (R90). -/
abbrev Request.read (addr : Nat) : Request := .bus .read addr 0

/-- `W addr, data` (R90). -/
abbrev Request.write (addr data : Nat) : Request := .bus .write addr data

/-- `T cycles` (R90). -/
abbrev Request.tick (cycles : Nat) : Request := .sys 2 cycles none

/-- `LOAD image` (R90). -/
abbrev Request.load (source : Option (List Byte)) : Request := .sys 0 0 source

/-- `RESET` (R90). -/
abbrev Request.reset : Request := .sys 1 0 none

/-- The pseudo-requests of the request notation (R91), with their byte operands; each stands for one or two requests
(`Pseudo.expand` in Machine/Pseudo.lean). -/
inductive Pseudo where
  /-- `ENRAM`: enable external RAM -/
  | enram
  /-- `DISRAM`: disable external RAM -/
  | disram
  /-- `ROMMODE`: select ROM banking mode -/
  | rommode
  /-- `RAMMODE`: select RAM banking mode -/
  | rammode
  /-- `ROMLO n`: the low bits of the ROM bank -/
  | romlo (n : Byte)
  /-- `ROMHI n`: the high bits of the ROM bank -/
  | romhi (n : Byte)
  /-- `RAMBANK n`: RAM banking mode, then the RAM bank -/
  | rambank (n : Byte)
  /-- `TSTART f`: enable the timer at this frequency select -/
  | tstart (f : Byte)
  /-- `TSTOP f`: disable the timer at this frequency select -/
  | tstop (f : Byte)
  /-- `DIVRST`: clear DIV -/
  | divrst
deriving DecidableEq, Repr

end Sys2Proof
end

