-- ==== Sys2Proof/Config.lean ====
section
/-! DEFINITION. The block's named parameters (R8, R9) and the one value the spec leaves open, `EXT_RAM_INIT`. -/

namespace Sys2Proof

/-- `ROM_IMAGE_SIZE` (R8): the cartridge image buffer, in bytes. -/
abbrev Config.romImageSize : Nat := 0x200000

/-- `ROM_BANK_SIZE` (R8). -/
abbrev Config.romBankSize : Nat := 0x4000

/-- `INT_SIZE` (R8): internal memory, in bytes. -/
abbrev Config.intSize : Nat := 0x10000

/-- `EXT_SIZE` (R8): external RAM, in bytes. -/
abbrev Config.extSize : Nat := 0x8000

/-- `EXT_BANK_SIZE` (R8): one of the `EXT_BANKS` = 4 banks of external RAM. -/
abbrev Config.extBankSize : Nat := 0x2000

/-- `HDR_BANKMODE` (R8): the header offset of the bank-mode byte. -/
abbrev Config.hdrBankMode : Nat := 0x147

/-- `HDR_RAMBANKS` (R8): the header offset of the RAM-bank-count byte. -/
abbrev Config.hdrRamBanks : Nat := 0x148

/-- `DIV_THRESHOLD` (R8). -/
abbrev Config.divThreshold : Nat := 255

/-- `MAX_TICK` (R9, decision D16): the largest cycle count a TICK accepts. -/
abbrev Config.maxTick : Nat := 0xFFFF

/-- `OPEN_BUS_VALUE` (R9, decisions D4 and D5). -/
abbrev Config.openBusValue : Byte := 0xFF

/-- `EXT_RAM_INIT` (R9, R31, decision D13): the power-up contents of external RAM, OPEN in the spec.  A FREE VALUE: it has no
body, so nothing can be proved of it (log entry 7). -/
opaque Config.extRamInit : Nat → Byte

end Sys2Proof
end

