-- ==== Sys2Proof/Syntax.lean ====
section
/-! DEFINITION. The instructions: one constructor for each row of the opcode map (R86, opcode_table.json), in the map's order.
A mnemonic with several rows (RD_INTERNAL, WR_INTERNAL) has one constructor for each row (log entry 12). -/

namespace Sys2Proof

/-- A decoded request.  `addr` and `data` are the operands of a BUS request (R87); the rows of a single address (WR_DIV,
WR_TIMA, WR_TMA, WR_TMC) carry no address. -/
inductive Instr where
  /-- row 1, RD_TIMER: 0xFF04-0xFF07 (R136) -/
  | rdTimer (addr : Addr)
  /-- row 2, RD_INTERNAL: 0xFF00-0xFF03 and 0xFF08-0xFFFF (R137) -/
  | rdInternalHigh (addr : Addr)
  /-- row 3, RD_INTERNAL: 0xFE80-0xFE9F (R137) -/
  | rdInternalFe80 (addr : Addr)
  /-- row 4, RD_INTERNAL: 0xFE00-0xFE7F (R137) -/
  | rdInternalFe00 (addr : Addr)
  /-- row 5, RD_UNUSABLE: 0xFEA0-0xFEFF (R135) -/
  | rdUnusable (addr : Addr)
  /-- row 6, RD_ROM0: 0x0000-0x3FFF (R132) -/
  | rdRom0 (addr : Addr)
  /-- row 7, RD_ROMX: 0x4000-0x7FFF (R133) -/
  | rdRomx (addr : Addr)
  /-- row 8, RD_EXTRAM: 0xA000-0xBFFF (R134) -/
  | rdExtram (addr : Addr)
  /-- row 9, RD_INTERNAL: 0x8000-0x9FFF and 0xC000-0xFDFF (R137) -/
  | rdInternal (addr : Addr)
  /-- row 10, WR_DIV: 0xFF04 (R140) -/
  | wrDiv (data : Byte)
  /-- row 11, WR_TIMA: 0xFF05 (R141) -/
  | wrTima (data : Byte)
  /-- row 12, WR_TMA: 0xFF06 (R142) -/
  | wrTma (data : Byte)
  /-- row 13, WR_TMC: 0xFF07 (R143) -/
  | wrTmc (data : Byte)
  /-- row 14, WR_INTERNAL: 0xFF00-0xFF03 and 0xFF08-0xFFFF (R145) -/
  | wrInternalHigh (addr : Addr) (data : Byte)
  /-- row 15, WR_INTERNAL: 0xFE80-0xFE9F (R145) -/
  | wrInternalFe80 (addr : Addr) (data : Byte)
  /-- row 16, WR_INTERNAL: 0xFE00-0xFE7F (R145) -/
  | wrInternalFe00 (addr : Addr) (data : Byte)
  /-- row 17, WR_UNUSABLE: 0xFEA0-0xFEFF (R144) -/
  | wrUnusable (addr : Addr) (data : Byte)
  /-- row 18, WR_ECHO: 0xE000-0xFDFF (R139) -/
  | wrEcho (addr : Addr) (data : Byte)
  /-- row 19, WR_EXTRAM: 0xA000-0xBFFF (R138) -/
  | wrExtram (addr : Addr) (data : Byte)
  /-- row 20, WR_MBC1_RAMEN: 0x0000-0x1FFF on MBC1 (R111) -/
  | wrMbc1Ramen (addr : Addr) (data : Byte)
  /-- row 21, WR_MBC1_ROMLO: 0x2000-0x3FFF on MBC1 (R112) -/
  | wrMbc1Romlo (addr : Addr) (data : Byte)
  /-- row 22, WR_MBC1_HI: 0x4000-0x5FFF on MBC1 (R113) -/
  | wrMbc1Hi (addr : Addr) (data : Byte)
  /-- row 23, WR_MBC1_MODE: 0x6000-0x7FFF on MBC1 (R114) -/
  | wrMbc1Mode (addr : Addr) (data : Byte)
  /-- row 24, WR_MBC2_RAMEN: 0x0000-0x1FFF with addr[4] = 0 on MBC2 (R115) -/
  | wrMbc2Ramen (addr : Addr) (data : Byte)
  /-- row 25, WR_MBC2_RAMEN_IGN: 0x0000-0x1FFF with addr[4] = 1 on MBC2 (R116) -/
  | wrMbc2RamenIgn (addr : Addr) (data : Byte)
  /-- row 26, WR_MBC2_ROMLO: 0x2000-0x3FFF on MBC2 (R117) -/
  | wrMbc2Romlo (addr : Addr) (data : Byte)
  /-- row 27, WR_MBC2_NOP: 0x4000-0x7FFF on MBC2 (R118) -/
  | wrMbc2Nop (addr : Addr) (data : Byte)
  /-- row 28, WR_NONE_NOP: 0x0000-0x7FFF without a bank controller (R119) -/
  | wrNoneNop (addr : Addr) (data : Byte)
  /-- row 29, WR_INTERNAL: 0x8000-0x9FFF and 0xC000-0xDFFF (R145) -/
  | wrInternal (addr : Addr) (data : Byte)
  /-- row 30, LOAD (R100); `none` is an absent or unreadable source -/
  | load (source : Option (List Byte))
  /-- row 31, RESET (R201) -/
  | reset
  /-- row 32, TICK (R162) -/
  | tick (cycles : BitVec 16)
deriving DecidableEq, Repr

end Sys2Proof
end

