-- ==== Sys2Proof/WellFormed.lean ====
section
/-! DEFINITION. Which decoded requests the opcode map can give: each row's address operand lies in the addresses that row
actually takes (R86's column "addresses taken"). -/

namespace Sys2Proof

/-- `addr` lies in `lo` to `hi`, both ends included (R11). -/
def Addr.within (lo hi : Nat) (addr : Addr) : Bool :=
  decide (lo ≤ addr.toNat) && decide (addr.toNat ≤ hi)

/-- The addresses of rows 2 and 14: page 0xFF less the four timer registers. -/
def Addr.highPage (addr : Addr) : Bool :=
  Addr.within 0xFF00 0xFF03 addr || Addr.within 0xFF08 0xFFFF addr

/-- The instruction's operands are ones its row of the opcode map takes (R86). -/
def Instr.wf : Instr → Bool
  | .rdTimer a => Addr.within 0xFF04 0xFF07 a
  | .rdInternalHigh a => Addr.highPage a
  | .rdInternalFe80 a => Addr.within 0xFE80 0xFE9F a
  | .rdInternalFe00 a => Addr.within 0xFE00 0xFE7F a
  | .rdUnusable a => Addr.within 0xFEA0 0xFEFF a
  | .rdRom0 a => Addr.within 0x0000 0x3FFF a
  | .rdRomx a => Addr.within 0x4000 0x7FFF a
  | .rdExtram a => Addr.within 0xA000 0xBFFF a
  | .rdInternal a => Addr.within 0x8000 0x9FFF a || Addr.within 0xC000 0xFDFF a
  | .wrDiv _ => true
  | .wrTima _ => true
  | .wrTma _ => true
  | .wrTmc _ => true
  | .wrInternalHigh a _ => Addr.highPage a
  | .wrInternalFe80 a _ => Addr.within 0xFE80 0xFE9F a
  | .wrInternalFe00 a _ => Addr.within 0xFE00 0xFE7F a
  | .wrUnusable a _ => Addr.within 0xFEA0 0xFEFF a
  | .wrEcho a _ => Addr.within 0xE000 0xFDFF a
  | .wrExtram a _ => Addr.within 0xA000 0xBFFF a
  | .wrMbc1Ramen a _ => Addr.within 0x0000 0x1FFF a
  | .wrMbc1Romlo a _ => Addr.within 0x2000 0x3FFF a
  | .wrMbc1Hi a _ => Addr.within 0x4000 0x5FFF a
  | .wrMbc1Mode a _ => Addr.within 0x6000 0x7FFF a
  | .wrMbc2Ramen a _ => Addr.within 0x0000 0x1FFF a && !a.getLsbD 4
  | .wrMbc2RamenIgn a _ => Addr.within 0x0000 0x1FFF a && a.getLsbD 4
  | .wrMbc2Romlo a _ => Addr.within 0x2000 0x3FFF a
  | .wrMbc2Nop a _ => Addr.within 0x4000 0x7FFF a
  | .wrNoneNop a _ => Addr.within 0x0000 0x7FFF a
  | .wrInternal a _ => Addr.within 0x8000 0x9FFF a || Addr.within 0xC000 0xDFFF a
  | .load _ => true
  | .reset => true
  | .tick _ => true

end Sys2Proof
end

