-- ==== Sys2Proof/Decode.lean ====
section
/-! DEFINITION. Decoding (R80 to R88): a caller's request is put into words (`formFrame`), and the words are decoded by the
opcode map, first match wins (R85, R86).  Every request either decodes or is rejected by the name of what is wrong with it.
After it the encoder, from the same tables.  Last, the host's view of one word of opcode_table.json. -/

namespace Sys2Proof

/-- Why a request has no instruction (R88): a reserved encoding, WRITE data above 0xFF, a cycle count above MAX_TICK, or an
address above 0xFFFF (which is not a refusal but the fault ADDR, R181). -/
inductive DecodeError where
  | reserved
  | dataWidth
  | tickRange
  | badAddress (addr : Nat)
deriving DecidableEq, Repr

/-! ## The words -/

/-- The bank-mode codes of R82. -/
def BankMode.code : BankMode → BitVec 2
  | .none => 0b00
  | .mbc1 => 0b01
  | .mbc2 => 0b10

/-- The direction bit of R81. -/
def Dir.bit : Dir → Nat
  | .read => 0
  | .write => 1

/-- The BUS decode key, `K = mode * 0x20000 + dir * 0x10000 + addr` (R81). -/
def busKey (mode : BitVec 2) (dir : Dir) (addr : Addr) : Nat :=
  mode.toNat * 0x20000 + dir.bit * 0x10000 + addr.toNat

/-- The BUS frame, `TW = K * 0x100 + data` (R83). -/
def busFrame (mode : BitVec 2) (dir : Dir) (addr : Addr) (data : Byte) : Frame :=
  .bus (BitVec.ofNat 27 (busKey mode dir addr * 0x100 + data.toNat))

/-- The SYS frame: `S[17:16]` is the kind and `S[15:0]` the operand (R84). -/
def sysFrame (kind : BitVec 2) (operand : BitVec 16) (source : Option (List Byte)) : Frame :=
  .sys (BitVec.ofNat 18 (kind.toNat * 0x10000 + operand.toNat)) source

/-- Put a caller's request into words, on a cartridge of bank mode `mode`.  The checks are those of R184 (3), in its order:
DATA_WIDTH before ADDR for a WRITE; a SYS operand that does not fit `S[15:0]` is TICK_RANGE for a TICK and RESERVED for any
other kind (R88; log entry 9).  A READ carries no data (R81), whatever the caller put there. -/
def formFrame (mode : BankMode) : Request → Except DecodeError Frame
  | .bus .read addr _ =>
    if addr ≤ 0xFFFF then .ok (busFrame mode.code .read (BitVec.ofNat 16 addr) 0) else .error (.badAddress addr)
  | .bus .write addr data =>
    if data ≤ 0xFF then
      if addr ≤ 0xFFFF then .ok (busFrame mode.code .write (BitVec.ofNat 16 addr) (BitVec.ofNat 8 data))
      else .error (.badAddress addr)
    else .error .dataWidth
  | .sys kind operand source =>
    if operand ≤ Config.maxTick then .ok (sysFrame kind (BitVec.ofNat 16 operand) source)
    else if kind = 2 then .error .tickRange
    else .error .reserved

/-! ## The opcode map -/

/-- One BUS row of the opcode map (R86): a key `K` is in the row when `K & mask = pat`. -/
structure Row where
  mask : Nat
  pat : Nat
  make : Addr → Byte → Instr

/-- Rows 1 to 9 of R86: the READs. -/
def readRows : List Row :=
  [ ⟨0x1FFFC, 0x0FF04, fun a _ => .rdTimer a⟩,
    ⟨0x1FF00, 0x0FF00, fun a _ => .rdInternalHigh a⟩,
    ⟨0x1FFE0, 0x0FE80, fun a _ => .rdInternalFe80 a⟩,
    ⟨0x1FF80, 0x0FE00, fun a _ => .rdInternalFe00 a⟩,
    ⟨0x1FF00, 0x0FE00, fun a _ => .rdUnusable a⟩,
    ⟨0x1C000, 0x00000, fun a _ => .rdRom0 a⟩,
    ⟨0x1C000, 0x04000, fun a _ => .rdRomx a⟩,
    ⟨0x1E000, 0x0A000, fun a _ => .rdExtram a⟩,
    ⟨0x10000, 0x00000, fun a _ => .rdInternal a⟩ ]

/-- Rows 10 to 19 of R86: the WRITEs of any bank mode, but for row 29. -/
def writeRows : List Row :=
  [ ⟨0x1FFFF, 0x1FF04, fun _ d => .wrDiv d⟩,
    ⟨0x1FFFF, 0x1FF05, fun _ d => .wrTima d⟩,
    ⟨0x1FFFF, 0x1FF06, fun _ d => .wrTma d⟩,
    ⟨0x1FFFF, 0x1FF07, fun _ d => .wrTmc d⟩,
    ⟨0x1FF00, 0x1FF00, fun a d => .wrInternalHigh a d⟩,
    ⟨0x1FFE0, 0x1FE80, fun a d => .wrInternalFe80 a d⟩,
    ⟨0x1FF80, 0x1FE00, fun a d => .wrInternalFe00 a d⟩,
    ⟨0x1FF00, 0x1FE00, fun a d => .wrUnusable a d⟩,
    ⟨0x1E000, 0x1E000, fun a d => .wrEcho a d⟩,
    ⟨0x1E000, 0x1A000, fun a d => .wrExtram a d⟩ ]

/-- Rows 20 to 28 of R86, the bank-control commands, and row 29. -/
def commandRows : List Row :=
  [ ⟨0x7E000, 0x30000, fun a d => .wrMbc1Ramen a d⟩,
    ⟨0x7E000, 0x32000, fun a d => .wrMbc1Romlo a d⟩,
    ⟨0x7E000, 0x34000, fun a d => .wrMbc1Hi a d⟩,
    ⟨0x7E000, 0x36000, fun a d => .wrMbc1Mode a d⟩,
    ⟨0x7E010, 0x50000, fun a d => .wrMbc2Ramen a d⟩,
    ⟨0x7E010, 0x50010, fun a d => .wrMbc2RamenIgn a d⟩,
    ⟨0x7E000, 0x52000, fun a d => .wrMbc2Romlo a d⟩,
    ⟨0x7C000, 0x54000, fun a d => .wrMbc2Nop a d⟩,
    ⟨0x78000, 0x10000, fun a d => .wrNoneNop a d⟩,
    ⟨0x18000, 0x18000, fun a d => .wrInternal a d⟩ ]

/-- The BUS rows of the opcode map, in decode order (R86). -/
def busRows : List Row := readRows ++ writeRows ++ commandRows

/-- Try the rows in their order: the first one with `K & mask = pat` is the request's row; a key that no row takes is reserved
(R85). -/
def decodeRows (k : Nat) (data : Byte) : List Row → Except DecodeError Instr
  | [] => .error .reserved
  | r :: rows => if k &&& r.mask = r.pat then .ok (r.make (BitVec.ofNat 16 k) data) else decodeRows k data rows

/-- Decode a BUS key with its data byte (R85). -/
def decodeBus (k : Nat) (data : Byte) : Except DecodeError Instr :=
  decodeRows k data busRows

/-- Decode a SYS word: rows 30 to 32 by `S & 0x30000` (R85); kind 0b11, and an operand on LOAD or RESET, are reserved
(R84, R88). -/
def decodeSys (s : Nat) (source : Option (List Byte)) : Except DecodeError Instr :=
  if s &&& 0x30000 = 0x00000 then
    if s % 0x10000 = 0 then .ok (.load source) else .error .reserved
  else if s &&& 0x30000 = 0x10000 then
    if s % 0x10000 = 0 then .ok .reset else .error .reserved
  else if s &&& 0x30000 = 0x20000 then .ok (.tick (BitVec.ofNat 16 s))
  else .error .reserved

/-- Decode any words: `K = TW[26:8]` and `data = TW[7:0]` of a BUS frame (R83), or a SYS frame (R84). -/
def decode : Frame → Except DecodeError Instr
  | .bus tw => decodeBus (tw.toNat / 0x100) (BitVec.ofNat 8 tw.toNat)
  | .sys s source => decodeSys s.toNat source

/-- Decode a caller's request on a cartridge of bank mode `mode`: the block supplies the mode field of the key (R81). -/
def decodeRequest (mode : BankMode) (r : Request) : Except DecodeError Instr :=
  match formFrame mode r with
  | .ok f => decode f
  | .error e => .error e

/-! ## The encoder -/

/-- The words of a well-formed instruction (R81 to R86).  `mode` is the mode field of a row of any bank mode; a
bank-control row has its own. -/
def encode (mode : BitVec 2) : Instr → Frame
  | .rdTimer a => busFrame mode .read a 0
  | .rdInternalHigh a => busFrame mode .read a 0
  | .rdInternalFe80 a => busFrame mode .read a 0
  | .rdInternalFe00 a => busFrame mode .read a 0
  | .rdUnusable a => busFrame mode .read a 0
  | .rdRom0 a => busFrame mode .read a 0
  | .rdRomx a => busFrame mode .read a 0
  | .rdExtram a => busFrame mode .read a 0
  | .rdInternal a => busFrame mode .read a 0
  | .wrDiv d => busFrame mode .write 0xFF04 d
  | .wrTima d => busFrame mode .write 0xFF05 d
  | .wrTma d => busFrame mode .write 0xFF06 d
  | .wrTmc d => busFrame mode .write 0xFF07 d
  | .wrInternalHigh a d => busFrame mode .write a d
  | .wrInternalFe80 a d => busFrame mode .write a d
  | .wrInternalFe00 a d => busFrame mode .write a d
  | .wrUnusable a d => busFrame mode .write a d
  | .wrEcho a d => busFrame mode .write a d
  | .wrExtram a d => busFrame mode .write a d
  | .wrMbc1Ramen a d => busFrame 0b01 .write a d
  | .wrMbc1Romlo a d => busFrame 0b01 .write a d
  | .wrMbc1Hi a d => busFrame 0b01 .write a d
  | .wrMbc1Mode a d => busFrame 0b01 .write a d
  | .wrMbc2Ramen a d => busFrame 0b10 .write a d
  | .wrMbc2RamenIgn a d => busFrame 0b10 .write a d
  | .wrMbc2Romlo a d => busFrame 0b10 .write a d
  | .wrMbc2Nop a d => busFrame 0b10 .write a d
  | .wrNoneNop a d => busFrame 0b00 .write a d
  | .wrInternal a d => busFrame mode .write a d
  | .load source => sysFrame 0b00 0 source
  | .reset => sysFrame 0b01 0 none
  | .tick cycles => sysFrame 0b10 cycles none

/-! ## One word of opcode_table.json

A table word is a key `K` for a BUS row and a word `S` for a SYS row, without the format tag of R80 that tells the two apart.
The convention that follows is the model's own (log entry 13): the three bare words of the SYS rows (kind, operand 0) are read
as SYS words, every other word as a BUS key with data 0. -/

/-- The table word is the bare word of a SYS row: LOAD, RESET or TICK with operand 0 (log entry 13). -/
def tableWordIsSys (w : Nat) : Bool :=
  w == 0x00000 || w == 0x10000 || w == 0x20000

/-- The request that a table word stands for; a LOAD comes with the empty stream (log entry 13). -/
def tableRequest (nbits w : Nat) : Request :=
  let w := w % 2 ^ nbits
  if tableWordIsSys w then .sys (BitVec.ofNat 2 (w / 0x10000)) (w % 0x10000) (some [])
  else .bus (if w / 0x10000 % 2 = 0 then .read else .write) (w % 0x10000) 0

/-- The bank mode in a table word's bits 18:17 (R82); none for the reserved code. -/
def tableMode (nbits w : Nat) : Option BankMode :=
  match w % 2 ^ nbits / 0x20000 % 4 with
  | 0 => some .none
  | 1 => some .mbc1
  | 2 => some .mbc2
  | _ => none

/-- The instruction the decoder reads from the table word `w` (log entry 13). -/
def decodeTableWord (nbits w : Nat) : Option Instr :=
  let v := w % 2 ^ nbits
  let frame : Frame :=
    if tableWordIsSys v then .sys (BitVec.ofNat 18 v) (some []) else .bus (BitVec.ofNat 27 (v * 0x100))
  match decode frame with
  | .ok i => some i
  | .error _ => none

end Sys2Proof
end

