-- ==== Sys2Proof/Machine/State.lean ====
section
/-! DEFINITION. The state of the block (R22), with the model's own record of the request port (log entries 3 and 4), the
stop reasons, and the state at the start of a session. -/

namespace Sys2Proof.Machine

/-- Stored bytes: (address, byte) pairs, addresses strictly rising, no entry equal to what an unlisted address reads as. -/
abbrev Memory := List Host.Cell

/-- The session lifecycle (R38). -/
inductive Phase where
  | unloaded
  | loaded
  | running
deriving DecidableEq, Repr

/-- The sticky fault record (R22, R181): the fault's code with its information. -/
inductive FaultRecord where
  /-- code 1, LOAD: LOAD found its source absent or unreadable -/
  | load
  /-- code 2, ADDR: a READ or WRITE had this address, above 0xFFFF -/
  | addr (address : Nat)
  /-- code 3, ROM_RANGE: RD_ROMX translated the bus address, in this bank, to this offset, past the image -/
  | romRange (address : Addr) (bank : Byte) (offset : Nat)
deriving DecidableEq, Repr

/-- The reasons of a refusal (R183).  A refusal is an answer of the block, not a stop of the model (log entry 6). -/
inductive RefuseReason where
  | notRunning
  | phase
  | loadTooLarge
  | tickRange
  | dataWidth
  | reserved
  | faulted
deriving DecidableEq, Repr

/-- What the response port returns for one request (R6, R39). -/
inductive Response where
  /-- the byte of a READ -/
  | byte (value : Byte)
  /-- a WRITE, LOAD or RESET has completed -/
  | done
  /-- the interrupt-request bit of a TICK -/
  | irq (raised : Bool)
  /-- the request was refused (R183) -/
  | refused (why : RefuseReason)
  /-- the request raised this fault (R181) -/
  | fault (record : FaultRecord)
deriving DecidableEq, Repr

/-- The block's state: the elements of R22, one field each, then the model's own fields. -/
structure State where
  /-- `cart.bytes` (R23): an unlisted offset below 0x200000 holds 0x00 -/
  cartBytes : Memory
  /-- `cart.bankMode` (R24) -/
  cartBankMode : BankMode
  /-- `cart.ramBankCount` (R25) -/
  cartRamBankCount : Byte
  /-- `romBankingModeActive` (R26) -/
  romBankingModeActive : Bool
  /-- `currentROMBank` (R27) -/
  currentROMBank : Byte
  /-- `ramBankingEnabled` (R28) -/
  ramBankingEnabled : Bool
  /-- `currentRAMBank` (R29) -/
  currentRAMBank : BitVec 2
  /-- `Int` (R30): an unlisted address holds its power-up value (R202) -/
  internal : Memory
  /-- `Ext` (R31): an unlisted offset has not been written since power-up and holds `EXT_RAM_INIT` there -/
  external : Memory
  /-- `DIV` (R32) -/
  div : Byte
  /-- `TIMA` (R33) -/
  tima : Byte
  /-- `TMA` (R34) -/
  tma : Byte
  /-- `TMC` (R35) -/
  tmc : Byte
  /-- `dividerCounter` (R36) -/
  dividerCounter : Int
  /-- `timerCounter` (R37) -/
  timerCounter : Int
  /-- `phase` (R38) -/
  phase : Phase
  /-- `fault` (R22, R181) -/
  fault : Option FaultRecord
  /-- the model's own: the requests the caller has issued and the block has not yet served, oldest first (log entry 3) -/
  inbox : List Request
  /-- the model's own: the response to the latest request served, none before the first (log entry 4) -/
  response : Option Response
  /-- the model's own: how many requests have been refused (R183 asks for the record; log entry 4) -/
  refusals : Nat
deriving DecidableEq, Repr

/-- The reasons a step can stop with a fault: NONE.  A fault of the block (R181) is no stop of the model: its entry is
described, the sticky record is written and later requests are refused, so it is a next state (log entry 5). -/
inductive Fault where
deriving DecidableEq, Repr

/-- The reasons the model has no meaning for an instruction. -/
inductive Refusal where
  /-- raised by no arm of `exec` now: an instruction without a meaning would be refused so (safe) -/
  | notModelled (mnemonic : String)
deriving DecidableEq, Repr

/-- The outcome of one request. -/
abbrev Result := Host.Outcome State Fault Refusal

/-- The start of a session (R200): phase UNLOADED, no fault, no request served.  The registers and memories hold their
power-up values (R204), which RESET sets again; before RESET the spec gives them none (log entry 1).  The cartridge holds no
value before LOAD (R23); the model's is an empty image without a bank controller (log entry 2). -/
def State.reset : State where
  cartBytes := []
  cartBankMode := .none
  cartRamBankCount := 0x00
  romBankingModeActive := true
  currentROMBank := 0x01
  ramBankingEnabled := false
  currentRAMBank := 0
  internal := []
  external := []
  div := 0x00
  tima := 0x00
  tma := 0x00
  tmc := 0x00
  dividerCounter := 0
  timerCounter := 1024
  phase := .unloaded
  fault := none
  inbox := []
  response := none
  refusals := 0

end Sys2Proof.Machine
end

