-- ==== Sys2Proof/Machine/Operands.lean ====
section
/-! DEFINITION. The operand forms: the sub-fields of data and address that the rules read (R87), the two bank translations
(R60, R61), the frequency table (R160) and the header classification (R101). -/

namespace Sys2Proof.Machine

/-! ## Sub-fields of the data byte (R87) -/

/-- `data[3:0]`, the RAM-enable nibble of R111 and R115. -/
def ramEnableNibble (data : Byte) : Byte := data &&& 0x0F

/-- `data & 0x1F`, the low bits of an MBC1 ROM bank (R112). -/
def romLowBits (data : Byte) : Byte := data &&& 0x1F

/-- `data & 0xE0`, the high bits of an MBC1 ROM bank, kept in place (R113). -/
def romHighBits (data : Byte) : Byte := data &&& 0xE0

/-- `data & 0x3`, the RAM bank (R113). -/
def ramBankBits (data : Byte) : BitVec 2 := data.setWidth 2

/-- `(data & 0x1) == 0`: the mode bit selects ROM banking mode (R114). -/
def selectsRomBanking (data : Byte) : Bool := data &&& 0x01 == 0

/-- `data & 0xF`, the MBC2 ROM bank (R117). -/
def mbc2RomBits (data : Byte) : Byte := data &&& 0x0F

/-- The force to 1 of a whole ROM bank of 0 (R27: "hardware maps bank 0 to bank 1"). -/
def forceBank (bank : Byte) : Byte := if bank = 0 then 1 else bank

/-! ## Fields of TMC (R35, R160) -/

/-- `TMC[1:0]`, the frequency select. -/
def frequencySelect (tmc : Byte) : BitVec 2 := tmc.setWidth 2

/-- `FREQ_TABLE` (R160): the cycles per TIMA increment. -/
def freqTable (sel : BitVec 2) : Nat :=
  match sel.toNat with
  | 0 => 1024
  | 1 => 16
  | 2 => 64
  | _ => 256

/-! ## Bank translation -/

/-- The ROM offset of an address of the switchable window (R60, R133). -/
def romOffset (addr : Addr) (bank : Byte) : Nat :=
  (addr.toNat - 0x4000) + bank.toNat * Config.romBankSize

/-- The external-RAM offset of an address of the external-RAM window (R61). -/
def extOffset (addr : Addr) (bank : BitVec 2) : Nat :=
  (addr.toNat - 0xA000) + bank.toNat * Config.extBankSize

/-- The work-RAM address an echo write is mirrored into (R139). -/
def echoTarget (addr : Addr) : Addr := addr - 0x2000

/-! ## The header -/

/-- DetectBankMode (R101). -/
def detectBankMode (h : Byte) : BankMode :=
  if h = 0x00 then .none
  else if 0x01 ≤ h.toNat ∧ h.toNat ≤ 0x03 then .mbc1
  else if 0x05 ≤ h.toNat ∧ h.toNat ≤ 0x06 then .mbc2
  else .none

end Sys2Proof.Machine
end

