-- ==== Sys2Proof/Machine/Flags.lean ====
section
/-! DEFINITION. The conditions the block computes.  It has no flag register (R20); what other hardware keeps in flags are here
the enable bit of TMC (R160), the two thresholds of a TICK (R163, R164) and the overflow that raises `irq` (R185). -/

namespace Sys2Proof.Machine

/-- The timer is enabled iff `TMC[2] == 1` (R160). -/
def timerEnabled (tmc : Byte) : Bool := tmc.getLsbD 2

/-- `dividerCounter >= 255` (R163). -/
def dividerExpired (counter : Int) : Bool := decide ((Config.divThreshold : Int) ≤ counter)

/-- `timerCounter <= 0` (R164). -/
def timerExpired (counter : Int) : Bool := decide (counter ≤ 0)

/-- TIMA is at its last value, so that its next increment is an overflow (R164). -/
def timaFull (tima : Byte) : Bool := tima == 0xFF

end Sys2Proof.Machine
end

