-- ==== Sys2Proof/Machine/Ops.lean ====
section
/-! DEFINITION. The shared operations: memory as canonical lists, the three storages of the block, the answers (a response, a
refusal, and TAKING A FAULT as one operation), the admission checks, and taking a request from the port. -/

namespace Sys2Proof.Machine

/-! ## Memory -/

/-- The entry listed for address `a`, if any. -/
def Memory.get? (a : Nat) : Memory → Option Byte
  | [] => none
  | (b, v) :: m => if a = b then some v else Memory.get? a m

/-- List `v` at address `a`, in rising order of address. -/
def Memory.put (a : Nat) (v : Byte) : Memory → Memory
  | [] => [(a, v)]
  | (b, w) :: m =>
    if a < b then (a, v) :: (b, w) :: m
    else if a = b then (a, v) :: m
    else (b, w) :: Memory.put a v m

/-- Take address `a` off the list. -/
def Memory.erase (a : Nat) : Memory → Memory
  | [] => []
  | (b, w) :: m => if a = b then Memory.erase a m else (b, w) :: Memory.erase a m

/-- Write `v` at `a`, where an unlisted address reads as `dflt` says: writing that value removes the entry. -/
def Memory.write (dflt : Nat → Option Byte) (a : Nat) (v : Byte) (m : Memory) : Memory :=
  if dflt a = some v then Memory.erase a m else Memory.put a v m

/-- Addresses strictly rising. -/
def Memory.rising : Memory → Bool
  | [] => true
  | (a, _) :: m => m.all (fun c => decide (a < c.1)) && Memory.rising m

/-- The canonical form: addresses strictly rising, each one satisfying `ok`, and no entry equal to what an unlisted address
reads as. -/
def Memory.wf (ok : Nat → Bool) (dflt : Nat → Option Byte) (m : Memory) : Bool :=
  Memory.rising m && m.all (fun c => ok c.1 && dflt c.1 != some c.2)

/-! ## Power-up values -/

/-- POWER_UP_IO (R202), the sound registers' part. -/
def powerUpSound : List (Nat × Byte) :=
  [(0xFF10, 0x80), (0xFF11, 0xBF), (0xFF12, 0xF3), (0xFF14, 0xBF), (0xFF16, 0x3F), (0xFF17, 0x00), (0xFF19, 0xBF),
   (0xFF1A, 0x7F), (0xFF1B, 0xFF), (0xFF1C, 0x9F), (0xFF1E, 0xBF), (0xFF20, 0xFF), (0xFF21, 0x00), (0xFF22, 0x00),
   (0xFF23, 0xBF), (0xFF24, 0x77), (0xFF25, 0xF3), (0xFF26, 0xF1)]

/-- POWER_UP_IO (R202), the display registers' part and 0xFFFF. -/
def powerUpDisplay : List (Nat × Byte) :=
  [(0xFF40, 0x91), (0xFF42, 0x00), (0xFF43, 0x00), (0xFF45, 0x00), (0xFF47, 0xFC), (0xFF48, 0xFF), (0xFF49, 0xFF),
   (0xFF4A, 0x00), (0xFF4B, 0x00), (0xFFFF, 0x00)]

/-- POWER_UP_IO less the rows of the timer registers, which `Int` does not hold (R201, R202). -/
def powerUpIo : List (Nat × Byte) := powerUpSound ++ powerUpDisplay

/-- The power-up value of `Int[a]`: R202's, and 0x00 at every other address (R30, decision D12). -/
def intPowerUp (a : Nat) : Byte := (Memory.get? a powerUpIo).getD 0x00

/-! ## What an unlisted address of each storage reads as -/

/-- The cartridge image's tail is zero-filled (R23). -/
def cartDefault (_ : Nat) : Option Byte := some 0x00

/-- Internal memory reads as its power-up value (R30, R202). -/
def intDefault (a : Nat) : Option Byte := some (intPowerUp a)

/-- External RAM has no listed value before its first write: the read supplies `EXT_RAM_INIT` (R31; log entry 7). -/
def extDefault (_ : Nat) : Option Byte := none

/-! ## The three storages -/

/-- `cart.bytes[a]` (R23). -/
def State.cartByte (s : State) (a : Nat) : Byte := (Memory.get? a s.cartBytes).getD 0x00

/-- `Int[a]` (R30). -/
def State.intByte (s : State) (a : Nat) : Byte := (Memory.get? a s.internal).getD (intPowerUp a)

/-- `Ext[o]` (R31). -/
def State.extByte (s : State) (o : Nat) : Byte := (Memory.get? o s.external).getD (Config.extRamInit o)

/-- `Int[a] <- v`. -/
def State.setInt (a : Nat) (v : Byte) (s : State) : State :=
  { s with internal := Memory.write intDefault a v s.internal }

/-- `Ext[o] <- v`. -/
def State.setExt (o : Nat) (v : Byte) (s : State) : State :=
  { s with external := Memory.write extDefault o v s.external }

/-- The cells of an image whose first byte stands at offset `a`: zero bytes are not listed (R100). -/
def imageCells (a : Nat) : List Byte → Memory
  | [] => []
  | b :: bs => if b = 0x00 then imageCells (a + 1) bs else (a, b) :: imageCells (a + 1) bs

/-! ## Answers -/

/-- The state with the response `r` at the response port (R6). -/
def State.answer (r : Response) (s : State) : State := { s with response := some r }

/-- The request completes with the response `r`. -/
def respond (r : Response) (s : State) : Result := .next (s.answer r)

/-- The state with a refusal recorded: the block's own state is unchanged (R183). -/
def State.recordRefusal (why : RefuseReason) (s : State) : State :=
  { s with response := some (.refused why), refusals := s.refusals + 1 }

/-- `refuse(why)` (R13, R183): the answer is the reason, and the refusal is recorded. -/
def refuse (why : RefuseReason) (s : State) : Result := .next (s.recordRefusal why)

/-- The state with the fault recorded: no state is written except the fault record (R181). -/
def State.recordFault (f : FaultRecord) (s : State) : State :=
  { s with fault := some f, response := some (.fault f) }

/-- TAKING A FAULT, `raise Fault(code, info)` (R13, R181).  There is no saved register, no mode change and no redirection
(R187), and no return from it: the record is never cleared (R181, R188). -/
def raiseFault (f : FaultRecord) (s : State) : Result := .next (s.recordFault f)

/-! ## Admission (R184) -/

/-- Check (1): any request of a faulted block is refused. -/
def whenUnfaulted (s : State) (k : Result) : Result :=
  if s.fault.isSome then refuse .faulted s else k

/-- Checks (1) and (2) of READ, WRITE and TICK. -/
def whenRunning (s : State) (k : Result) : Result :=
  whenUnfaulted s (if s.phase = .running then k else refuse .notRunning s)

/-- Checks (1) and (2) of LOAD and RESET, which are accepted in phase `p` only (R38). -/
def whenPhase (p : Phase) (s : State) (k : Result) : Result :=
  whenUnfaulted s (if s.phase = p then k else refuse .phase s)

/-- The answer to a request that does not decode, once admitted: checks (3) of R184. -/
def rejected (e : DecodeError) (s : State) : Result :=
  match e with
  | .reserved => refuse .reserved s
  | .dataWidth => refuse .dataWidth s
  | .tickRange => refuse .tickRange s
  | .badAddress a => raiseFault (.addr a) s

/-- A request that does not decode: its admission checks first, by what it asks for, then what is wrong with it (R184).  A
reserved SYS kind has no phase of its own (log entry 10). -/
def rejectRequest (r : Request) (e : DecodeError) (s : State) : Result :=
  match r with
  | .bus _ _ _ => whenRunning s (rejected e s)
  | .sys kind _ _ =>
    if kind = 0 then whenPhase .unloaded s (rejected e s)
    else if kind = 1 then whenPhase .loaded s (rejected e s)
    else if kind = 2 then whenRunning s (rejected e s)
    else whenUnfaulted s (rejected e s)

/-! ## Reads and writes -/

/-- CartRead (R103) at an offset, for a READ of `addr`: the image's byte, or the fault ROM_RANGE past the image. -/
def cartRead (addr : Addr) (offset : Nat) (s : State) : Result :=
  if offset < Config.romImageSize then respond (.byte (s.cartByte offset)) s
  else raiseFault (.romRange addr s.currentROMBank offset) s

/-- A READ of internal memory (R137). -/
def readInternal (addr : Addr) (s : State) : Result :=
  respond (.byte (s.intByte addr.toNat)) s

/-- A WRITE of internal memory (R145). -/
def writeInternal (addr : Addr) (data : Byte) (s : State) : Result :=
  respond .done (s.setInt addr.toNat data)

/-- The RAM-enable command, the same on MBC1 and MBC2 (R111, R115). -/
def ramEnable (data : Byte) (s : State) : State :=
  if ramEnableNibble data = 0x0A then { s with ramBankingEnabled := true }
  else if ramEnableNibble data = 0x00 then { s with ramBankingEnabled := false }
  else s

/-! ## The timer (R163, R164) -/

/-- DividerStep (R163). -/
def dividerStep (n : Nat) (s : State) : State :=
  if dividerExpired (s.dividerCounter + n) then { s with dividerCounter := 0, div := s.div + 1 }
  else { s with dividerCounter := s.dividerCounter + n }

/-- TimerStep (R164), with whether it raised `irq`. -/
def timerStep (n : Nat) (s : State) : State × Bool :=
  if timerExpired (s.timerCounter - n) then
    if timaFull s.tima then
      ({ s with timerCounter := freqTable (frequencySelect s.tmc), tima := s.tma }, true)
    else
      ({ s with timerCounter := freqTable (frequencySelect s.tmc), tima := s.tima + 1 }, false)
  else ({ s with timerCounter := s.timerCounter - n }, false)

/-! ## The request port -/

/-- The oldest request at the port, with the state in which it is no longer there (log entry 3). -/
def takeRequest (s : State) : Option (Request × State) :=
  match s.inbox with
  | [] => none
  | r :: rest => some (r, { s with inbox := rest })

/-- The state in which the request `r` is the next one served. -/
def State.withRequest (r : Request) (s : State) : State := { s with inbox := r :: s.inbox }

/-- The state in which the requests `rs` are the next ones served, in their order. -/
def State.withRequests (rs : List Request) (s : State) : State := { s with inbox := rs ++ s.inbox }

end Sys2Proof.Machine
end

