-- ==== Sys2Proof/Machine/BankController.lean ====
section
/-! DEFINITION. The bank-control commands (41_bank_controller.md). -/

namespace Sys2Proof.Machine

/-- WR_MBC1_RAMEN (R111). -/
def execWrMbc1Ramen (_addr : Addr) (data : Byte) (s : State) : Result :=
  whenRunning s (respond .done (ramEnable data s))

/-- WR_MBC1_ROMLO (R112). -/
def execWrMbc1Romlo (_addr : Addr) (data : Byte) (s : State) : Result :=
  whenRunning s <|
    respond .done { s with currentROMBank := forceBank (romHighBits s.currentROMBank ||| romLowBits data) }

/-- WR_MBC1_HI (R113). -/
def execWrMbc1Hi (_addr : Addr) (data : Byte) (s : State) : Result :=
  whenRunning s <|
    if s.romBankingModeActive then
      respond .done { s with currentROMBank := forceBank (romLowBits s.currentROMBank ||| romHighBits data) }
    else
      respond .done { s with currentRAMBank := ramBankBits data }

/-- WR_MBC1_MODE (R114). -/
def execWrMbc1Mode (_addr : Addr) (data : Byte) (s : State) : Result :=
  whenRunning s <|
    if selectsRomBanking data then
      respond .done { s with romBankingModeActive := true, currentRAMBank := 0 }
    else
      respond .done { s with romBankingModeActive := false }

/-- WR_MBC2_RAMEN (R115). -/
def execWrMbc2Ramen (_addr : Addr) (data : Byte) (s : State) : Result :=
  whenRunning s (respond .done (ramEnable data s))

/-- WR_MBC2_RAMEN_IGN (R116): ignored. -/
def execWrMbc2RamenIgn (_addr : Addr) (_data : Byte) (s : State) : Result :=
  whenRunning s (respond .done s)

/-- WR_MBC2_ROMLO (R117). -/
def execWrMbc2Romlo (_addr : Addr) (data : Byte) (s : State) : Result :=
  whenRunning s (respond .done { s with currentROMBank := forceBank (mbc2RomBits data) })

/-- WR_MBC2_NOP (R118). -/
def execWrMbc2Nop (_addr : Addr) (_data : Byte) (s : State) : Result :=
  whenRunning s (respond .done s)

/-- WR_NONE_NOP (R119). -/
def execWrNoneNop (_addr : Addr) (_data : Byte) (s : State) : Result :=
  whenRunning s (respond .done s)

end Sys2Proof.Machine
end

