-- ==== Sys2Proof/Machine/Cartridge.lean ====
section
/-! DEFINITION. The CartridgeImage's request: LOAD (40_cartridge.md). -/

namespace Sys2Proof.Machine

/-- The cartridge fields after a readable source has been copied and classified (R100 to R102). -/
def State.loadImage (src : List Byte) (s : State) : State :=
  let s1 := { s with cartBytes := imageCells 0 src }
  { s1 with
    cartBankMode := detectBankMode (s1.cartByte Config.hdrBankMode)
    cartRamBankCount := s1.cartByte Config.hdrRamBanks
    phase := .loaded }

/-- LOAD (R100). -/
def execLoad (source : Option (List Byte)) (s : State) : Result :=
  whenPhase .unloaded s <|
    match source with
    | none => raiseFault .load s
    | some src =>
      if src.length ≤ Config.romImageSize then respond .done (s.loadImage src)
      else refuse .loadTooLarge s

end Sys2Proof.Machine
end

