-- ==== Sys2Proof/Machine/Reads.lean ====
section
/-! DEFINITION. The READ rows (42_address_space.md section 2). -/

namespace Sys2Proof.Machine

/-- RD_TIMER (R136): the register at 0xFF04, 0xFF05, 0xFF06 or 0xFF07. -/
def timerRegister (addr : Addr) (s : State) : Byte :=
  if addr = 0xFF04 then s.div
  else if addr = 0xFF05 then s.tima
  else if addr = 0xFF06 then s.tma
  else s.tmc

/-- RD_TIMER (R136). -/
def execRdTimer (addr : Addr) (s : State) : Result :=
  whenRunning s (respond (.byte (timerRegister addr s)) s)

/-- RD_INTERNAL, row 2 (R137). -/
def execRdInternalHigh (addr : Addr) (s : State) : Result :=
  whenRunning s (readInternal addr s)

/-- RD_INTERNAL, row 3 (R137). -/
def execRdInternalFe80 (addr : Addr) (s : State) : Result :=
  whenRunning s (readInternal addr s)

/-- RD_INTERNAL, row 4 (R137). -/
def execRdInternalFe00 (addr : Addr) (s : State) : Result :=
  whenRunning s (readInternal addr s)

/-- RD_UNUSABLE (R135, decision D5). -/
def execRdUnusable (_addr : Addr) (s : State) : Result :=
  whenRunning s (respond (.byte Config.openBusValue) s)

/-- RD_ROM0 (R132). -/
def execRdRom0 (addr : Addr) (s : State) : Result :=
  whenRunning s (cartRead addr addr.toNat s)

/-- RD_ROMX (R133). -/
def execRdRomx (addr : Addr) (s : State) : Result :=
  whenRunning s (cartRead addr (romOffset addr s.currentROMBank) s)

/-- RD_EXTRAM (R134, decision D4). -/
def execRdExtram (addr : Addr) (s : State) : Result :=
  whenRunning s <|
    if s.ramBankingEnabled then respond (.byte (s.extByte (extOffset addr s.currentRAMBank))) s
    else respond (.byte Config.openBusValue) s

/-- RD_INTERNAL, row 9 (R137). -/
def execRdInternal (addr : Addr) (s : State) : Result :=
  whenRunning s (readInternal addr s)

end Sys2Proof.Machine
end

