-- ==== Sys2Proof/Machine/Session.lean ====
section
/-! DEFINITION. The power-up request: RESET (70_reset_and_hazards.md). -/

namespace Sys2Proof.Machine

/-- Every element but the cartridge and the fault record at its power-up value (R201, R204).  The values are applied directly,
not by WRITEs. -/
def State.powerUp (s : State) : State :=
  { s with
    romBankingModeActive := true
    currentROMBank := 0x01
    ramBankingEnabled := false
    currentRAMBank := 0
    internal := []
    external := []
    div := 0x00
    tima := 0x00
    tma := 0x00
    tmc := 0x00
    dividerCounter := 0
    timerCounter := 1024
    phase := .running }

/-- RESET (R201). -/
def execReset (s : State) : Result :=
  whenPhase .loaded s (respond .done s.powerUp)

end Sys2Proof.Machine
end

