-- ==== Sys2Proof/Machine/Timer.lean ====
section
/-! DEFINITION. The TimerSubsystem: the WRITEs of its registers (R140 to R143) and TICK (43_timer.md). -/

namespace Sys2Proof.Machine

/-- WR_DIV (R140): any data; `dividerCounter` keeps its value (decision D15). -/
def execWrDiv (_data : Byte) (s : State) : Result :=
  whenRunning s (respond .done { s with div := 0x00 })

/-- WR_TIMA (R141). -/
def execWrTima (data : Byte) (s : State) : Result :=
  whenRunning s (respond .done { s with tima := data })

/-- WR_TMA (R142). -/
def execWrTma (data : Byte) (s : State) : Result :=
  whenRunning s (respond .done { s with tma := data })

/-- WR_TMC (R143): the raw byte, and a full reload when the frequency select changed. -/
def execWrTmc (data : Byte) (s : State) : Result :=
  whenRunning s <|
    if frequencySelect data = frequencySelect s.tmc then respond .done { s with tmc := data }
    else respond .done { s with tmc := data, timerCounter := freqTable (frequencySelect data) }

/-- The two steps of a TICK, with the interrupt request (R162). -/
def tickStep (n : Nat) (s : State) : State × Bool :=
  let s1 := dividerStep n s
  if timerEnabled s1.tmc then timerStep n s1 else (s1, false)

/-- TICK (R162). -/
def execTick (cycles : BitVec 16) (s : State) : Result :=
  whenRunning s (respond (.irq (tickStep cycles.toNat s).2) (tickStep cycles.toNat s).1)

end Sys2Proof.Machine
end

