-- ==== Sys2Proof/Machine/Writes.lean ====
section
/-! DEFINITION. The WRITE rows that reach storage or nothing (42_address_space.md section 3); the timer's are in Timer. -/

namespace Sys2Proof.Machine

/-- WR_INTERNAL, row 14 (R145). -/
def execWrInternalHigh (addr : Addr) (data : Byte) (s : State) : Result :=
  whenRunning s (writeInternal addr data s)

/-- WR_INTERNAL, row 15 (R145). -/
def execWrInternalFe80 (addr : Addr) (data : Byte) (s : State) : Result :=
  whenRunning s (writeInternal addr data s)

/-- WR_INTERNAL, row 16 (R145). -/
def execWrInternalFe00 (addr : Addr) (data : Byte) (s : State) : Result :=
  whenRunning s (writeInternal addr data s)

/-- WR_UNUSABLE (R144): discarded. -/
def execWrUnusable (_addr : Addr) (_data : Byte) (s : State) : Result :=
  whenRunning s (respond .done s)

/-- WR_ECHO (R139): the literal address, then the work-RAM address it mirrors. -/
def execWrEcho (addr : Addr) (data : Byte) (s : State) : Result :=
  whenRunning s (writeInternal (echoTarget addr) data (s.setInt addr.toNat data))

/-- WR_EXTRAM (R138). -/
def execWrExtram (addr : Addr) (data : Byte) (s : State) : Result :=
  whenRunning s <|
    if s.ramBankingEnabled then respond .done (s.setExt (extOffset addr s.currentRAMBank) data)
    else respond .done s

/-- WR_INTERNAL, row 29 (R145). -/
def execWrInternal (addr : Addr) (data : Byte) (s : State) : Result :=
  whenRunning s (writeInternal addr data s)

end Sys2Proof.Machine
end

