-- ==== Sys2Proof/Machine/Dispatch.lean ====
section
/-! DEFINITION. The meaning of every instruction: one arm per row of the opcode map (R86). -/

namespace Sys2Proof.Machine

def exec (i : Instr) (s : State) : Host.Outcome State Fault Refusal :=
  match i with
  | .rdTimer addr => Sys2Proof.Machine.execRdTimer addr s
  | .rdInternalHigh addr => Sys2Proof.Machine.execRdInternalHigh addr s
  | .rdInternalFe80 addr => Sys2Proof.Machine.execRdInternalFe80 addr s
  | .rdInternalFe00 addr => Sys2Proof.Machine.execRdInternalFe00 addr s
  | .rdUnusable addr => Sys2Proof.Machine.execRdUnusable addr s
  | .rdRom0 addr => Sys2Proof.Machine.execRdRom0 addr s
  | .rdRomx addr => Sys2Proof.Machine.execRdRomx addr s
  | .rdExtram addr => Sys2Proof.Machine.execRdExtram addr s
  | .rdInternal addr => Sys2Proof.Machine.execRdInternal addr s
  | .wrDiv data => Sys2Proof.Machine.execWrDiv data s
  | .wrTima data => Sys2Proof.Machine.execWrTima data s
  | .wrTma data => Sys2Proof.Machine.execWrTma data s
  | .wrTmc data => Sys2Proof.Machine.execWrTmc data s
  | .wrInternalHigh addr data => Sys2Proof.Machine.execWrInternalHigh addr data s
  | .wrInternalFe80 addr data => Sys2Proof.Machine.execWrInternalFe80 addr data s
  | .wrInternalFe00 addr data => Sys2Proof.Machine.execWrInternalFe00 addr data s
  | .wrUnusable addr data => Sys2Proof.Machine.execWrUnusable addr data s
  | .wrEcho addr data => Sys2Proof.Machine.execWrEcho addr data s
  | .wrExtram addr data => Sys2Proof.Machine.execWrExtram addr data s
  | .wrMbc1Ramen addr data => Sys2Proof.Machine.execWrMbc1Ramen addr data s
  | .wrMbc1Romlo addr data => Sys2Proof.Machine.execWrMbc1Romlo addr data s
  | .wrMbc1Hi addr data => Sys2Proof.Machine.execWrMbc1Hi addr data s
  | .wrMbc1Mode addr data => Sys2Proof.Machine.execWrMbc1Mode addr data s
  | .wrMbc2Ramen addr data => Sys2Proof.Machine.execWrMbc2Ramen addr data s
  | .wrMbc2RamenIgn addr data => Sys2Proof.Machine.execWrMbc2RamenIgn addr data s
  | .wrMbc2Romlo addr data => Sys2Proof.Machine.execWrMbc2Romlo addr data s
  | .wrMbc2Nop addr data => Sys2Proof.Machine.execWrMbc2Nop addr data s
  | .wrNoneNop addr data => Sys2Proof.Machine.execWrNoneNop addr data s
  | .wrInternal addr data => Sys2Proof.Machine.execWrInternal addr data s
  | .load source => Sys2Proof.Machine.execLoad source s
  | .reset => Sys2Proof.Machine.execReset s
  | .tick cycles => Sys2Proof.Machine.execTick cycles s

end Sys2Proof.Machine
end

