-- ==== Sys2Proof/Machine/Step.lean ====
section
/-! DEFINITION. One step: the block serves the oldest request at its port.  With no request there it does nothing (R7). -/

namespace Sys2Proof.Machine

/-- One request served (R6): decoded with the block's own bank mode (R81) and run, or rejected (R184). -/
def step (s : State) : Host.Outcome State Fault Refusal :=
  match takeRequest s with
  | none => .next s
  | some (r, s') =>
    match decodeRequest s'.cartBankMode r with
    | .ok i => exec i s'
    | .error e => rejectRequest r e s'

/-- The phase in which a request is accepted (R38). -/
def acceptingPhase : Request → Phase
  | .bus _ _ _ => .running
  | .sys kind _ _ => if kind = 0 then .unloaded else if kind = 1 then .loaded else .running

/-- The state in which the table word `w` is the next request served, in the phase that accepts it, without a fault, and on a
cartridge of the bank mode in its bits 18:17 (log entry 14). -/
def State.withFetchWord (s : State) (nbits w : Nat) : State :=
  let r := tableRequest nbits w
  { s.withRequest r with
    phase := acceptingPhase r
    fault := none
    cartBankMode :=
      match r with
      | .bus _ _ _ => (tableMode nbits w).getD s.cartBankMode
      | .sys _ _ _ => s.cartBankMode }

end Sys2Proof.Machine
end

