-- ==== Sys2Proof/Machine/Pseudo.lean ====
section
/-! DEFINITION. The pseudo-requests of the request notation (R91): each one's expansion into the requests it stands for.  What
those requests do is their own meanings' business. -/

namespace Sys2Proof

/-- The expansion of a pseudo-request, in the order of its requests (R91; log entry 23). -/
def Pseudo.expand : Pseudo → List Request
  | .enram => [.write 0x0000 0x0A]
  | .disram => [.write 0x0000 0x00]
  | .rommode => [.write 0x6000 0x00]
  | .rammode => [.write 0x6000 0x01]
  | .romlo n => [.write 0x2000 n.toNat]
  | .romhi n => [.write 0x4000 n.toNat]
  | .rambank n => [.write 0x6000 0x01, .write 0x4000 n.toNat]
  | .tstart f => [.write 0xFF07 (0x04 ||| (f &&& 0x3)).toNat]
  | .tstop f => [.write 0xFF07 (f &&& 0x3).toNat]
  | .divrst => [.write 0xFF04 0x00]

end Sys2Proof
end

