-- ==== Sys2Proof/Safety.lean ====
section
/-! DEFINITION. What claims call a safe run: the invariants the spec gives (R40, R41, R161), the canonical form of the three
storages, and the states in which the block serves its caller. -/

namespace Sys2Proof.Machine

/-- The addresses at which `Int` is ever written (R41). -/
def usedIntAddress (a : Nat) : Bool :=
  (decide (0x8000 ≤ a) && decide (a < 0xA000)) || (decide (0xC000 ≤ a) && decide (a < 0xFEA0)) ||
    (decide (0xFF00 ≤ a) && decide (a < 0xFF04)) || (decide (0xFF08 ≤ a) && decide (a < Config.intSize))

/-- The three storages are in canonical form, each within its size (R23, R30, R31), and `Int` is listed at no slot that no
request writes (R41). -/
abbrev State.MemoryWf (s : State) : Prop :=
  Memory.wf (fun a => decide (a < Config.romImageSize)) cartDefault s.cartBytes = true ∧
  Memory.wf usedIntAddress intDefault s.internal = true ∧
  Memory.wf (fun o => decide (o < Config.extSize)) extDefault s.external = true

/-- The bank-controller invariants, items 1 and 3 to 6 of R40; item 2 is the width of `currentRAMBank`. -/
abbrev State.BankInv (s : State) : Prop :=
  s.currentROMBank ≠ 0 ∧
  (s.romBankingModeActive = true → s.currentRAMBank = 0) ∧
  (s.cartBankMode = .none → s.currentROMBank = 1 ∧ s.ramBankingEnabled = false ∧ s.romBankingModeActive = true ∧
    s.currentRAMBank = 0) ∧
  (s.cartBankMode = .mbc2 → s.currentROMBank.toNat ≤ 15 ∧ s.romBankingModeActive = true ∧ s.currentRAMBank = 0)

/-- The counter ranges between requests (R161). -/
abbrev State.TimerInv (s : State) : Prop :=
  0 ≤ s.dividerCounter ∧ s.dividerCounter ≤ 254 ∧
  1 ≤ s.timerCounter ∧ s.timerCounter ≤ freqTable (frequencySelect s.tmc)

/-- The invariant of the block: the storages always, the registers of a RUNNING session (R40, R41, R161). -/
abbrev State.Inv (s : State) : Prop :=
  s.MemoryWf ∧ (s.phase = .running → s.BankInv ∧ s.TimerInv)

/-- The block serves READ, WRITE and TICK: no fault, phase RUNNING (R38, R184). -/
abbrev State.Ready (s : State) : Prop := s.fault = none ∧ s.phase = .running

/-- No request of the run so far has been refused and none has faulted. -/
abbrev State.Clean (s : State) : Prop := s.fault = none ∧ s.refusals = 0

end Sys2Proof.Machine
end

