-- ==== Sys2Proof/Certificates/Slice0/Obligations.lean ====
section
/-! DEFINITION. The statements for the provers.  A statement of an instruction's effect gives the next state whole: the state
before with the written fields replaced, or, where a storage is written, the storage read byte by byte and every other field
named as kept.  `response`, `refusals` and `inbox` are the model's record of the port (log entries 3 and 4).  "Ready" is the
admission condition of READ, WRITE and TICK: no fault and phase RUNNING (R38, R184). -/

open Sys2Proof Sys2Proof.Machine

namespace Sys2Proof.Machine.Claims

/-- Whatever the bank mode, the request decodes to this instruction. -/
def DecodesAlways (r : Request) (i : Instr) : Prop := ∀ m, decodeRequest m r = .ok i

/-- `t` is `s` but for the storage `Int` and the response, which is `done`. -/
def OnlyIntWritten (s t : State) : Prop :=
  t.response = some .done ∧ { t with internal := s.internal, response := s.response } = s

/-- `t` is `s` but for the storage `Ext` and the response, which is `done`. -/
def OnlyExtWritten (s t : State) : Prop :=
  t.response = some .done ∧ { t with external := s.external, response := s.response } = s

/-- The registers of the bank controller (R26 to R29) are the same. -/
def SameBank (s t : State) : Prop :=
  t.romBankingModeActive = s.romBankingModeActive ∧ t.currentROMBank = s.currentROMBank ∧
    t.ramBankingEnabled = s.ramBankingEnabled ∧ t.currentRAMBank = s.currentRAMBank

/-- The cartridge (R23 to R25) is the same. -/
def SameCart (s t : State) : Prop :=
  t.cartBytes = s.cartBytes ∧ t.cartBankMode = s.cartBankMode ∧ t.cartRamBankCount = s.cartRamBankCount

/-- The instruction a READ of `a` is, by the ranges of R130. -/
def ReadCase (a : Addr) (i : Instr) : Prop :=
  if a.toNat < 0x4000 then i = .rdRom0 a
  else if a.toNat < 0x8000 then i = .rdRomx a
  else if 0xA000 ≤ a.toNat ∧ a.toNat < 0xC000 then i = .rdExtram a
  else if 0xFEA0 ≤ a.toNat ∧ a.toNat < 0xFF00 then i = .rdUnusable a
  else if 0xFF04 ≤ a.toNat ∧ a.toNat < 0xFF08 then i = .rdTimer a
  else i = .rdInternal a ∨ i = .rdInternalHigh a ∨ i = .rdInternalFe80 a ∨ i = .rdInternalFe00 a

/-- The bank-control command a WRITE of `d` to `a` is, by the table of R110. -/
def CommandCase (m : BankMode) (a : Addr) (d : Byte) (i : Instr) : Prop :=
  match m with
  | .none => i = .wrNoneNop a d
  | .mbc1 =>
    if a.toNat < 0x2000 then i = .wrMbc1Ramen a d
    else if a.toNat < 0x4000 then i = .wrMbc1Romlo a d
    else if a.toNat < 0x6000 then i = .wrMbc1Hi a d
    else i = .wrMbc1Mode a d
  | .mbc2 =>
    if a.toNat < 0x2000 then (if a.toNat / 16 % 2 = 0 then i = .wrMbc2Ramen a d else i = .wrMbc2RamenIgn a d)
    else if a.toNat < 0x4000 then i = .wrMbc2Romlo a d
    else i = .wrMbc2Nop a d

/-- The instruction a WRITE of `d` to `a` is, by the ranges of R131. -/
def WriteCase (m : BankMode) (a : Addr) (d : Byte) (i : Instr) : Prop :=
  if a.toNat < 0x8000 then CommandCase m a d i
  else if 0xA000 ≤ a.toNat ∧ a.toNat < 0xC000 then i = .wrExtram a d
  else if 0xE000 ≤ a.toNat ∧ a.toNat < 0xFE00 then i = .wrEcho a d
  else if a.toNat = 0xFF04 then i = .wrDiv d
  else if a.toNat = 0xFF07 then i = .wrTmc d
  else if 0xFEA0 ≤ a.toNat ∧ a.toNat < 0xFF00 then i = .wrUnusable a d
  else if a.toNat = 0xFF05 then i = .wrTima d
  else if a.toNat = 0xFF06 then i = .wrTma d
  else i = .wrInternal a d ∨ i = .wrInternalHigh a d ∨ i = .wrInternalFe80 a d ∨ i = .wrInternalFe00 a d

/-- The bank-control commands (R110). -/
def IsCommand : Instr → Prop
  | .wrMbc1Ramen _ _ | .wrMbc1Romlo _ _ | .wrMbc1Hi _ _ | .wrMbc1Mode _ _ | .wrMbc2Ramen _ _ | .wrMbc2RamenIgn _ _
  | .wrMbc2Romlo _ _ | .wrMbc2Nop _ _ | .wrNoneNop _ _ => True
  | _ => False

/-- An address at which a WRITE stores its data where a READ of the same address finds it (R63), the external-RAM window only
while it is enabled. -/
def StoresData (s : State) (a : Nat) : Prop :=
  (0x8000 ≤ a ∧ a < 0xA000) ∨ (0xA000 ≤ a ∧ a < 0xC000 ∧ s.ramBankingEnabled = true) ∨ (0xC000 ≤ a ∧ a < 0xFEA0) ∨
    (0xFF00 ≤ a ∧ a ≤ 0xFFFF ∧ a ≠ 0xFF04)

/-- `t` is `s` but for the divider, TIMA, the countdown and the response. -/
def OnlyCountersWritten (s t : State) : Prop :=
  { t with
    div := s.div, dividerCounter := s.dividerCounter, tima := s.tima, timerCounter := s.timerCounter
    response := s.response } = s

/-- The requests that `p` stands for, put at the port of `s`, are served one by one and lead to `t`, answered `done`. -/
def Expands (p : Pseudo) (s t : State) : Prop :=
  core.run p.expand.length (s.withRequests p.expand) = .next (t.answer .done)

/-- `n` cycles a TICK, `k` TICKs at the port and nothing else. -/
def withTicks (n k : Nat) (s : State) : State := { s with inbox := List.replicate k (.tick n) }

end Sys2Proof.Machine.Claims

open Sys2Proof.Machine.Claims

/-! ## Decoding and encoding -/

/-- Words of 95_test_vectors.md section 2 decode to the requests they stand for (R81 to R86; the encoding is the spec's own
decision D2). -/
def Obligations.WrittenOutWordsDecode : Prop :=
  decode (.bus 0x3200005) = .ok (.wrMbc1Romlo 0x2000 0x05) ∧
  decode (.bus 0x2400000) = .ok (.rdRomx 0x4000) ∧
  decode (.bus 0x500100A) = .ok (.wrMbc2RamenIgn 0x0010 0x0A) ∧
  decode (.bus 0x500000A) = .ok (.wrMbc2Ramen 0x0000 0x0A) ∧
  decode (.bus 0x1600001) = .ok (.wrNoneNop 0x6000 0x01) ∧
  decode (.bus 0x3FF0477) = .ok (.wrDiv 0x77) ∧
  decode (.bus 0x2FF0700) = .ok (.rdTimer 0xFF07) ∧
  decode (.bus 0x2FEA000) = .ok (.rdUnusable 0xFEA0) ∧
  decode (.bus 0x3FDFF77) = .ok (.wrEcho 0xFDFF 0x77) ∧
  decode (.bus 0x3DFFF11) = .ok (.wrInternal 0xDFFF 0x11) ∧
  decode (.sys 0x10000 none) = .ok .reset ∧
  decode (.sys 0x20010 none) = .ok (.tick 16) ∧
  decode (.sys 0x30000 none) = .error .reserved

/-- Decoding the words of a well-formed instruction gives it back with every operand, whatever the mode field of a row of any
mode, the reserved code 0b11 among them (R80 to R86; decision D2). -/
def Obligations.DecodeOfEncode : Prop :=
  ∀ (mode : BitVec 2) (i : Instr), i.wf = true → decode (encode mode i) = .ok i

/-- What the decoder accepts is well formed and its words are the words it was read from, a READ's ignored data byte as 0
(R81, R85, R86; decision D2). -/
def Obligations.EncodeOfDecode : Prop :=
  (∀ (mode : BitVec 2) (dir : Dir) (addr : Addr) (data : Byte) (i : Instr),
    decode (busFrame mode dir addr data) = .ok i →
      i.wf = true ∧ encode mode i = busFrame mode dir addr (if dir = .read then 0 else data)) ∧
  (∀ (kind : BitVec 2) (operand : BitVec 16) (source : Option (List Byte)) (i : Instr),
    decode (sysFrame kind operand source) = .ok i →
      i.wf = true ∧ encode 0 i = sysFrame kind operand (if kind = 0 then source else none))

/-- READ dispatch by the opcode map's masks is R130's dispatch by ranges, in every bank mode.  Cases 4a and 4b of R130 are the
spec's own decisions D5 and D8.  That a READ's datum above 0xFF is ignored too is the model's choice, log entry 11. -/
def Obligations.ReadDispatchIsByRange : Prop :=
  ∀ (m : BankMode) (a : Addr) (data : Nat),
    ∃ i, decodeRequest m (.bus .read a.toNat data) = .ok i ∧ i.wf = true ∧ ReadCase a i

/-- WRITE dispatch by the opcode map's masks is R131's dispatch by ranges and R110's by windows, in every bank mode.  Cases 7a
and 7b of R131 are the spec's own decision D8. -/
def Obligations.WriteDispatchIsByRange : Prop :=
  ∀ (m : BankMode) (a : Addr) (d : Byte),
    ∃ i, decodeRequest m (.write a.toNat d.toNat) = .ok i ∧ i.wf = true ∧ WriteCase m a d i

/-! ## Steps and sessions -/

/-- When the oldest request at the port decodes to `i`, a step takes it off the port and is `exec i`: nothing else happens
around `exec` (the port is the model's own, log entry 3). -/
def Obligations.StepRunsTheDecodedRequest : Prop :=
  ∀ (s : State) (r : Request) (rest : List Request) (i : Instr), s.inbox = r :: rest →
    decodeRequest s.cartBankMode r = .ok i → i.wf = true ∧ step s = exec i { s with inbox := rest }

/-- With no request at the port a step changes nothing (00_scope.md, R7: "The block itself performs no step on its own"; the
step without a request is the model's own, log entry 3). -/
def Obligations.NoRequestNoChange : Prop :=
  ∀ s : State, s.inbox = [] → step s = .next s

/-- Every request is answered: a step with a request at the port goes on, takes that one request, and leaves a response; it
never stops with a fault or a refusal of the model (log entries 5 and 6). -/
def Obligations.EveryRequestIsAnswered : Prop :=
  ∀ (s : State) (r : Request) (rest : List Request), s.inbox = r :: rest →
    ∃ t, step s = .next t ∧ t.inbox = rest ∧ t.response.isSome = true

/-- A request that has no instruction is answered by the name of what is wrong with it, once admitted, DATA_WIDTH before ADDR
(30_encoding.md section 4; the spec's own decisions D3, D16, D28).  The model's choices: a reserved kind has no phase (log
entry 10), an operand above 0xFFFF on the kinds 0, 1 and 3 is RESERVED (log entry 9), and a READ's datum above 0xFF is ignored
(log entry 11). -/
def Obligations.UndecodableRequestsAreNamed : Prop :=
  ∀ s : State, s.fault = none →
    (∀ operand source, step (s.withRequest (.sys 3 operand source)) = .next (s.recordRefusal .reserved)) ∧
    (s.phase = .running → ∀ addr data, 0xFF < data →
      step (s.withRequest (.write addr data)) = .next (s.recordRefusal .dataWidth)) ∧
    (s.phase = .running → ∀ addr data, 0xFFFF < addr → data ≤ 0xFF →
      step (s.withRequest (.write addr data)) = .next (s.recordFault (.addr addr))) ∧
    (s.phase = .running → ∀ addr data, 0xFFFF < addr →
      step (s.withRequest (.bus .read addr data)) = .next (s.recordFault (.addr addr))) ∧
    (s.phase = .running → ∀ operand source, 0xFFFF < operand →
      step (s.withRequest (.sys 2 operand source)) = .next (s.recordRefusal .tickRange)) ∧
    (s.phase = .unloaded → ∀ operand source, operand ≠ 0 →
      step (s.withRequest (.sys 0 operand source)) = .next (s.recordRefusal .reserved)) ∧
    (s.phase = .loaded → ∀ operand source, operand ≠ 0 →
      step (s.withRequest (.sys 1 operand source)) = .next (s.recordRefusal .reserved))

/-- Out of its phase every request is refused and changes nothing, whatever its operands: READ, WRITE and TICK with
NOT_RUNNING, LOAD and RESET with PHASE (10_state.md section 8; the spec's own decisions D22 and D28). -/
def Obligations.RequestsOutOfPhaseAreRefused : Prop :=
  ∀ s : State, s.fault = none →
    (s.phase ≠ .running →
      (∀ dir addr data, step (s.withRequest (.bus dir addr data)) = .next (s.recordRefusal .notRunning)) ∧
      (∀ operand source, step (s.withRequest (.sys 2 operand source)) = .next (s.recordRefusal .notRunning))) ∧
    (s.phase ≠ .unloaded → ∀ operand source,
      step (s.withRequest (.sys 0 operand source)) = .next (s.recordRefusal .phase)) ∧
    (s.phase ≠ .loaded → ∀ operand source,
      step (s.withRequest (.sys 1 operand source)) = .next (s.recordRefusal .phase))

/-- After a fault, whatever the caller asks, however often, the block's state never changes again, the record included: every
request is refused FAULTED (60_exceptions.md section 1, U9; the spec's own decision D31). -/
def Obligations.FaultEndsTheSession : Prop :=
  ∀ (n : Nat) (s t : State) (f : FaultRecord), s.fault = some f → n ≤ s.inbox.length → core.run n s = .next t →
    t = { s with
      inbox := s.inbox.drop n
      response := if n = 0 then s.response else some (.refused .faulted)
      refusals := s.refusals + n }

/-- Each fault comes from its own request only: LOAD from a LOAD without a source, ADDR from a BUS request above 0xFFFF,
ROM_RANGE from a READ of the switchable window with a bank of 0x80 or more, on an MBC1 cartridge (60_exceptions.md section 1,
derived there; decisions D3, D6, D31).  The invariant rules out unreachable bank registers. -/
def Obligations.FaultsComeFromTheirOwnRequests : Prop :=
  ∀ (s t : State) (r : Request) (rest : List Request) (f : FaultRecord), s.Inv → s.fault = none → s.inbox = r :: rest →
    step s = .next t → t.fault = some f →
      (f = .load ∧ r = .sys 0 0 none) ∨
      (∃ dir addr data, r = .bus dir addr data ∧ 0xFFFF < addr ∧ f = .addr addr) ∨
      (∃ addr data, r = .bus .read addr data ∧ 0x4000 ≤ addr ∧ addr < 0x8000 ∧ s.cartBankMode = .mbc1 ∧
        0x80 ≤ s.currentROMBank.toNat ∧
        f = .romRange (BitVec.ofNat 16 addr) s.currentROMBank ((addr - 0x4000) + s.currentROMBank.toNat * 0x4000))

/-- After LOAD the cartridge never changes for the rest of the session (R104). -/
def Obligations.CartridgeIsImmutableAfterLoad : Prop :=
  ∀ (n : Nat) (s t : State), s.phase ≠ .unloaded → core.run n s = .next t → t.phase ≠ .unloaded ∧ SameCart s t

/-- The invariants of R40, R41 and R161 and the canonical form of the storages are kept by every step, from every state. -/
def Obligations.StepKeepsTheInvariant : Prop :=
  ∀ s t : State, s.Inv → step s = .next t → t.Inv

/-- The start of a session meets the invariant. -/
def Obligations.SessionStartMeetsTheInvariant : Prop := State.reset.Inv

/-- The start of a session: UNLOADED, no fault, nothing at the port (70_reset_and_hazards.md section 1; decision D22), and the
registers at the values RESET sets again (the model's choice, log entries 1 and 2). -/
def Obligations.SessionStartValues : Prop :=
  State.reset.phase = .unloaded ∧ State.reset.fault = none ∧ State.reset.inbox = [] ∧ State.reset.refusals = 0 ∧
  State.reset.romBankingModeActive = true ∧ State.reset.currentROMBank = 1 ∧ State.reset.ramBankingEnabled = false ∧
  State.reset.currentRAMBank = 0 ∧ State.reset.div = 0 ∧ State.reset.tima = 0 ∧ State.reset.tma = 0 ∧ State.reset.tmc = 0 ∧
  State.reset.dividerCounter = 0 ∧ State.reset.timerCounter = 1024

/-- LOAD and then RESET start a session: from UNLOADED without a fault they lead to a RUNNING block with the source's
cartridge (its bytes, and the bank mode and the RAM-bank count of its header) and the invariant (70_reset_and_hazards.md
sections 1 and 2; decisions D7 and D22). -/
def Obligations.LoadThenResetStartsTheSession : Prop :=
  ∀ (s : State) (src : List Byte) (rest : List Request), s.fault = none → s.phase = .unloaded → src.length ≤ 0x200000 →
    s.inbox = .load (some src) :: .reset :: rest →
    ∃ t, core.run 2 s = .next t ∧ t.Ready ∧ t.Inv ∧ t.inbox = rest ∧ t.refusals = s.refusals ∧
      (∀ a, t.cartByte a = (src[a]?).getD 0x00) ∧
      t.cartBankMode = detectBankMode ((src[0x147]?).getD 0x00) ∧ t.cartRamBankCount = (src[0x148]?).getD 0x00

/-! ## LOAD and RESET -/

/-- LOAD copies a readable source of at most 0x200000 bytes with a zero-filled tail, sets the bank mode from the copy's byte
0x147 (the table of DetectBankMode is LoadClassifiesTheHeader's) and the RAM-bank count from its byte 0x148, and goes to LOADED;
no other state changes (40_cartridge.md; decisions D7 and D22). -/
def Obligations.LoadCopiesTheImage : Prop :=
  ∀ (s : State) (src : List Byte), s.fault = none → s.phase = .unloaded → src.length ≤ 0x200000 →
    decodeRequest s.cartBankMode (.load (some src)) = .ok (.load (some src)) ∧
    ∃ t, exec (.load (some src)) s = .next t ∧
      (∀ a, t.cartByte a = (src[a]?).getD 0x00) ∧
      t.cartBankMode = detectBankMode ((src[0x147]?).getD 0x00) ∧ t.cartRamBankCount = (src[0x148]?).getD 0x00 ∧
      t.phase = .loaded ∧ t.response = some .done ∧
      { t with
        cartBytes := s.cartBytes, cartBankMode := s.cartBankMode, cartRamBankCount := s.cartRamBankCount
        phase := s.phase, response := s.response } = s

/-- LOAD classifies the header byte at 0x147 by the whole table of R101 and stores the result. -/
def Obligations.LoadClassifiesTheHeader : Prop :=
  ∀ (s : State) (src : List Byte), s.fault = none → s.phase = .unloaded → src.length ≤ 0x200000 →
    ∃ t, exec (.load (some src)) s = .next t ∧
      let h := (t.cartByte 0x147).toNat
      (t.cartBankMode = .mbc1 ↔ 0x01 ≤ h ∧ h ≤ 0x03) ∧ (t.cartBankMode = .mbc2 ↔ 0x05 ≤ h ∧ h ≤ 0x06) ∧
        (t.cartBankMode = .none ↔ h = 0x00 ∨ h = 0x04 ∨ 0x07 ≤ h)

/-- LOAD of an absent or unreadable source is the fault LOAD and writes nothing else; a source longer than 0x200000 bytes is
refused LOAD_TOO_LARGE (40_cartridge.md; the spec's own decisions D7 and D31). -/
def Obligations.LoadTrapsAndRefusals : Prop :=
  ∀ s : State, s.fault = none → s.phase = .unloaded →
    exec (.load none) s = .next { s with fault := some .load, response := some (.fault .load) } ∧
    ∀ src : List Byte, 0x200000 < src.length →
      exec (.load (some src)) s =
        .next { s with response := some (.refused .loadTooLarge), refusals := s.refusals + 1 }

/-- RESET sets every register and memory to its power-up value and goes to RUNNING, whatever they held; the cartridge, the
fault record and the port stay (70_reset_and_hazards.md section 1; the spec's own decisions D9 to D14 and D22).  External RAM
holds the free value EXT_RAM_INIT. -/
def Obligations.ResetSetsPowerUpValues : Prop :=
  ∀ s : State, s.fault = none → s.phase = .loaded →
    decodeRequest s.cartBankMode .reset = .ok .reset ∧
    ∃ t, exec .reset s = .next t ∧
      (∀ a, t.intByte a = intPowerUp a) ∧ (∀ o, t.extByte o = Config.extRamInit o) ∧ SameCart s t ∧ (s.Inv → t.Inv) ∧
      t.romBankingModeActive = true ∧ t.currentROMBank = 1 ∧ t.ramBankingEnabled = false ∧ t.currentRAMBank = 0 ∧
      t.div = 0 ∧ t.tima = 0 ∧ t.tma = 0 ∧ t.tmc = 0 ∧ t.dividerCounter = 0 ∧ t.timerCounter = 1024 ∧
      t.phase = .running ∧ t.fault = none ∧ t.response = some .done ∧ t.inbox = s.inbox ∧ t.refusals = s.refusals

/-- The power-up bytes of internal memory: the values of R202's table, and 0x00 at every address it does not list
(70_reset_and_hazards.md section 1; the 0x00 is the spec's own decision D12). -/
def Obligations.PowerUpBytesOfInternalMemory : Prop :=
  intPowerUp 0xFF10 = 0x80 ∧ intPowerUp 0xFF11 = 0xBF ∧ intPowerUp 0xFF12 = 0xF3 ∧ intPowerUp 0xFF14 = 0xBF ∧
  intPowerUp 0xFF16 = 0x3F ∧ intPowerUp 0xFF19 = 0xBF ∧ intPowerUp 0xFF1A = 0x7F ∧ intPowerUp 0xFF1B = 0xFF ∧
  intPowerUp 0xFF1C = 0x9F ∧ intPowerUp 0xFF1E = 0xBF ∧ intPowerUp 0xFF20 = 0xFF ∧ intPowerUp 0xFF23 = 0xBF ∧
  intPowerUp 0xFF24 = 0x77 ∧ intPowerUp 0xFF25 = 0xF3 ∧ intPowerUp 0xFF26 = 0xF1 ∧ intPowerUp 0xFF40 = 0x91 ∧
  intPowerUp 0xFF47 = 0xFC ∧ intPowerUp 0xFF48 = 0xFF ∧ intPowerUp 0xFF49 = 0xFF ∧
  ∀ a, a ∉ [0xFF10, 0xFF11, 0xFF12, 0xFF14, 0xFF16, 0xFF19, 0xFF1A, 0xFF1B, 0xFF1C, 0xFF1E, 0xFF20, 0xFF23, 0xFF24, 0xFF25,
    0xFF26, 0xFF40, 0xFF47, 0xFF48, 0xFF49] → intPowerUp a = 0x00

/-! ## The bank controller -/

/-- A WRITE to [0x0000,0x8000) is the command of R110's table; it completes, and touches neither `Int` nor `Ext` nor the
cartridge nor the timer; and apart from RESET, which sets the power-up values, no instruction but these commands changes the
bank controller (R110). -/
def Obligations.RomRangeWritesAreBankCommands : Prop :=
  (∀ (m : BankMode) (a : Addr) (d : Byte), a.toNat < 0x8000 →
    ∃ i, decodeRequest m (.write a.toNat d.toNat) = .ok i ∧ CommandCase m a d i ∧
      ∀ s : State, s.Ready → ∃ t, exec i s = .next t ∧ t.response = some .done ∧
        { t with
          romBankingModeActive := s.romBankingModeActive, currentROMBank := s.currentROMBank
          ramBankingEnabled := s.ramBankingEnabled, currentRAMBank := s.currentRAMBank, response := s.response } = s) ∧
  (∀ (i : Instr) (s t : State), exec i s = .next t → ¬ IsCommand i → i ≠ .reset → SameBank s t)

/-- The RAM-enable commands of MBC1 and of MBC2 with address bit 4 clear: a lower nibble of 0xA enables, 0x0 disables, any
other changes nothing (R111, R115). -/
def Obligations.RamEnableFollowsTheLowerNibble : Prop :=
  ∀ (addr : Addr) (data : Byte) (s : State), s.Ready →
    let t : State := { s with
      ramBankingEnabled :=
        if data.toNat % 16 = 10 then true else if data.toNat % 16 = 0 then false else s.ramBankingEnabled
      response := some .done }
    ((Instr.wrMbc1Ramen addr data).wf = true →
      decodeRequest .mbc1 (.write addr.toNat data.toNat) = .ok (.wrMbc1Ramen addr data) ∧
      exec (.wrMbc1Ramen addr data) s = .next t) ∧
    ((Instr.wrMbc2Ramen addr data).wf = true →
      decodeRequest .mbc2 (.write addr.toNat data.toNat) = .ok (.wrMbc2Ramen addr data) ∧
      exec (.wrMbc2Ramen addr data) s = .next t)

/-- WR_MBC1_ROMLO keeps the bank's high three bits, takes data bits 4:0, and forces a whole bank of 0 to 1, in both banking
modes; nothing else changes (R112). -/
def Obligations.Mbc1LowBitsOfTheRomBank : Prop :=
  ∀ (addr : Addr) (data : Byte) (s : State), (Instr.wrMbc1Romlo addr data).wf = true → s.Ready →
    decodeRequest .mbc1 (.write addr.toNat data.toNat) = .ok (.wrMbc1Romlo addr data) ∧
    exec (.wrMbc1Romlo addr data) s = .next { s with
      currentROMBank := BitVec.ofNat 8 (max 1 (s.currentROMBank.toNat / 32 * 32 + data.toNat % 32))
      response := some .done }

/-- WR_MBC1_HI: in ROM banking mode it keeps the bank's low five bits, takes data bits 7:5 in place, and forces a whole bank
of 0 to 1; in RAM banking mode it selects the RAM bank by data bits 1:0; nothing else changes (R113). -/
def Obligations.Mbc1HighBitsOrRamBank : Prop :=
  ∀ (addr : Addr) (data : Byte) (s : State), (Instr.wrMbc1Hi addr data).wf = true → s.Ready →
    decodeRequest .mbc1 (.write addr.toNat data.toNat) = .ok (.wrMbc1Hi addr data) ∧
    (s.romBankingModeActive = true →
      exec (.wrMbc1Hi addr data) s = .next { s with
        currentROMBank := BitVec.ofNat 8 (max 1 (s.currentROMBank.toNat % 32 + data.toNat / 32 * 32))
        response := some .done }) ∧
    (s.romBankingModeActive = false →
      exec (.wrMbc1Hi addr data) s = .next { s with
        currentRAMBank := BitVec.ofNat 2 (data.toNat % 4)
        response := some .done })

/-- WR_MBC1_MODE: data bit 0 clear selects ROM banking mode and clears the RAM bank; set, it selects RAM banking mode and keeps
it; nothing else changes (R114). -/
def Obligations.Mbc1ModeSelect : Prop :=
  ∀ (addr : Addr) (data : Byte) (s : State), (Instr.wrMbc1Mode addr data).wf = true → s.Ready →
    decodeRequest .mbc1 (.write addr.toNat data.toNat) = .ok (.wrMbc1Mode addr data) ∧
    exec (.wrMbc1Mode addr data) s = .next { s with
      romBankingModeActive := decide (data.toNat % 2 = 0)
      currentRAMBank := if data.toNat % 2 = 0 then 0 else s.currentRAMBank
      response := some .done }

/-- WR_MBC2_ROMLO replaces the whole bank by data bits 3:0, 0 forced to 1; nothing else changes (R117). -/
def Obligations.Mbc2RomBank : Prop :=
  ∀ (addr : Addr) (data : Byte) (s : State), (Instr.wrMbc2Romlo addr data).wf = true → s.Ready →
    decodeRequest .mbc2 (.write addr.toNat data.toNat) = .ok (.wrMbc2Romlo addr data) ∧
    exec (.wrMbc2Romlo addr data) s = .next { s with
      currentROMBank := BitVec.ofNat 8 (max 1 (data.toNat % 16))
      response := some .done }

/-- The WRITEs that do nothing: MBC2's RAM enable with address bit 4 set (R116), MBC2's upper windows (R118), every ROM-range
WRITE without a bank controller (R119), and the unusable region (R144).  They complete and change no state. -/
def Obligations.IgnoredWritesChangeNothing : Prop :=
  ∀ (addr : Addr) (data : Byte) (s : State), s.Ready →
    let t : State := { s with response := some .done }
    ((Instr.wrMbc2RamenIgn addr data).wf = true →
      decodeRequest .mbc2 (.write addr.toNat data.toNat) = .ok (.wrMbc2RamenIgn addr data) ∧
      exec (.wrMbc2RamenIgn addr data) s = .next t) ∧
    ((Instr.wrMbc2Nop addr data).wf = true →
      decodeRequest .mbc2 (.write addr.toNat data.toNat) = .ok (.wrMbc2Nop addr data) ∧
      exec (.wrMbc2Nop addr data) s = .next t) ∧
    ((Instr.wrNoneNop addr data).wf = true →
      decodeRequest .none (.write addr.toNat data.toNat) = .ok (.wrNoneNop addr data) ∧
      exec (.wrNoneNop addr data) s = .next t) ∧
    ((Instr.wrUnusable addr data).wf = true →
      DecodesAlways (.write addr.toNat data.toNat) (.wrUnusable addr data) ∧
      exec (.wrUnusable addr data) s = .next t)

/-- However long the session, without a bank controller the bank registers keep their power-up values, so that external RAM is
never enabled; on MBC2 the mode and the RAM bank keep theirs and the ROM bank stays in 1 to 15 (10_state.md section 9, derived
there). -/
def Obligations.BankRegistersOfNoneAndMbc2Sessions : Prop :=
  ∀ (n : Nat) (s t : State), s.Inv → s.phase = .running → core.run n s = .next t →
    (s.cartBankMode = .none → t.currentROMBank = 1 ∧ t.ramBankingEnabled = false ∧ t.romBankingModeActive = true ∧
      t.currentRAMBank = 0) ∧
    (s.cartBankMode = .mbc2 → 1 ≤ t.currentROMBank.toNat ∧ t.currentROMBank.toNat ≤ 15 ∧ t.romBankingModeActive = true ∧
      t.currentRAMBank = 0)

/-! ## Reads -/

/-- RD_ROM0 returns the image byte at the address itself, whatever the bank registers and the bank mode, and changes nothing
(R132). -/
def Obligations.ReadFixedRomBank : Prop :=
  ∀ (addr : Addr) (s : State), (Instr.rdRom0 addr).wf = true → s.Ready →
    DecodesAlways (.read addr.toNat) (.rdRom0 addr) ∧
    exec (.rdRom0 addr) s = .next { s with response := some (.byte (s.cartByte addr.toNat)) }

/-- RD_ROMX with a bank below 0x80 returns the image byte at the translated offset, which lies inside the image, and changes
nothing (42_address_space.md section 2, 20_memory.md section 4; the bound is the spec's own decision D6). -/
def Obligations.ReadSwitchableRomBank : Prop :=
  ∀ (addr : Addr) (s : State), (Instr.rdRomx addr).wf = true → s.Ready → s.currentROMBank.toNat < 0x80 →
    DecodesAlways (.read addr.toNat) (.rdRomx addr) ∧
    (addr.toNat - 0x4000) + s.currentROMBank.toNat * 0x4000 < 0x200000 ∧
    exec (.rdRomx addr) s = .next { s with
      response := some (.byte (s.cartByte ((addr.toNat - 0x4000) + s.currentROMBank.toNat * 0x4000))) }

/-- RD_ROMX with a bank of 0x80 or more is the fault ROM_RANGE, recording the address, the bank and the offset, and writes
nothing else (42_address_space.md section 2; the spec's own decision D6). -/
def Obligations.ReadPastTheImageFaults : Prop :=
  ∀ (addr : Addr) (s : State), (Instr.rdRomx addr).wf = true → s.Ready → 0x80 ≤ s.currentROMBank.toNat →
    let f := FaultRecord.romRange addr s.currentROMBank ((addr.toNat - 0x4000) + s.currentROMBank.toNat * 0x4000)
    exec (.rdRomx addr) s = .next { s with fault := some f, response := some (.fault f) }

/-- RD_EXTRAM returns the external byte of the selected bank while RAM is enabled, and OPEN_BUS_VALUE = 0xFF while it is not;
it changes nothing (42_address_space.md section 2; 0xFF is the spec's own decision D4). -/
def Obligations.ReadExternalRam : Prop :=
  ∀ (addr : Addr) (s : State), (Instr.rdExtram addr).wf = true → s.Ready →
    DecodesAlways (.read addr.toNat) (.rdExtram addr) ∧
    (s.ramBankingEnabled = true →
      (addr.toNat - 0xA000) + s.currentRAMBank.toNat * 0x2000 < 0x8000 ∧
      exec (.rdExtram addr) s = .next { s with
        response := some (.byte (s.extByte ((addr.toNat - 0xA000) + s.currentRAMBank.toNat * 0x2000))) }) ∧
    (s.ramBankingEnabled = false → exec (.rdExtram addr) s = .next { s with response := some (.byte 0xFF) })

/-- RD_UNUSABLE returns OPEN_BUS_VALUE = 0xFF, whatever was written, and changes nothing (42_address_space.md section 2; the
spec's own decision D5). -/
def Obligations.ReadUnusableRegion : Prop :=
  ∀ (addr : Addr) (s : State), (Instr.rdUnusable addr).wf = true → s.Ready →
    DecodesAlways (.read addr.toNat) (.rdUnusable addr) ∧
    exec (.rdUnusable addr) s = .next { s with response := some (.byte 0xFF) }

/-- RD_TIMER returns DIV, TIMA, TMA and TMC at 0xFF04 to 0xFF07, all bits as stored, and changes nothing
(42_address_space.md section 2; that the timer holds them is the spec's own decision D8). -/
def Obligations.ReadTimerRegisters : Prop :=
  ∀ (addr : Addr) (s : State), (Instr.rdTimer addr).wf = true → s.Ready →
    DecodesAlways (.read addr.toNat) (.rdTimer addr) ∧
    ∃ v, exec (.rdTimer addr) s = .next { s with response := some (.byte v) } ∧
      (addr.toNat = 0xFF04 → v = s.div) ∧ (addr.toNat = 0xFF05 → v = s.tima) ∧ (addr.toNat = 0xFF06 → v = s.tma) ∧
      (addr.toNat = 0xFF07 → v = s.tmc)

/-- RD_INTERNAL, each of its four rows, returns the internal byte at the literal address, the echo region's included, and
changes nothing (R137). -/
def Obligations.ReadInternalMemory : Prop :=
  ∀ (addr : Addr) (s : State), s.Ready →
    ∀ i ∈ [Instr.rdInternal addr, .rdInternalHigh addr, .rdInternalFe80 addr, .rdInternalFe00 addr], i.wf = true →
      DecodesAlways (.read addr.toNat) i ∧
      exec i s = .next { s with response := some (.byte (s.intByte addr.toNat)) }

/-- A READ has no side effect: whatever it is answered, the block's state is the same but for a fault record, and the same READ
at once again is answered the same byte (20_memory.md section 3, derived there).  That a READ's datum above 0xFF is ignored is
the model's choice, log entry 11. -/
def Obligations.ReadsHaveNoSideEffect : Prop :=
  ∀ (s t : State) (addr data : Nat) (rest : List Request), s.inbox = .bus .read addr data :: rest → step s = .next t →
    t = { s with inbox := rest, response := t.response, fault := t.fault, refusals := t.refusals } ∧
    (∀ v, t.response = some (.byte v) →
      t.fault = s.fault ∧ t.refusals = s.refusals ∧ ∀ data', step (t.withRequest (.bus .read addr data')) = .next t)

/-! ## Writes -/

/-- WR_EXTRAM stores its byte at the translated offset while RAM is enabled, and at no other offset; while it is disabled it
changes nothing; it never touches `Int` (R138). -/
def Obligations.WriteExternalRam : Prop :=
  ∀ (addr : Addr) (data : Byte) (s : State), (Instr.wrExtram addr data).wf = true → s.Ready →
    DecodesAlways (.write addr.toNat data.toNat) (.wrExtram addr data) ∧
    (s.ramBankingEnabled = true →
      extOffset addr s.currentRAMBank = (addr.toNat - 0xA000) + s.currentRAMBank.toNat * 0x2000 ∧
      ∃ t, exec (.wrExtram addr data) s = .next t ∧ OnlyExtWritten s t ∧
        ∀ o, t.extByte o = if o = extOffset addr s.currentRAMBank then data else s.extByte o) ∧
    (s.ramBankingEnabled = false → exec (.wrExtram addr data) s = .next { s with response := some .done })

/-- WR_ECHO stores its byte at the literal address and at the address 0x2000 lower, which lies in 0xC000-0xDDFF, and at no
other address (R139). -/
def Obligations.WriteEchoRegion : Prop :=
  ∀ (addr : Addr) (data : Byte) (s : State), (Instr.wrEcho addr data).wf = true → s.Ready →
    DecodesAlways (.write addr.toNat data.toNat) (.wrEcho addr data) ∧
    (echoTarget addr).toNat = addr.toNat - 0x2000 ∧ 0xC000 ≤ (echoTarget addr).toNat ∧ (echoTarget addr).toNat ≤ 0xDDFF ∧
    ∃ t, exec (.wrEcho addr data) s = .next t ∧ OnlyIntWritten s t ∧
      ∀ a, t.intByte a = if a = addr.toNat ∨ a = (echoTarget addr).toNat then data else s.intByte a

/-- WR_INTERNAL, each of its four rows, stores its byte at the address and at no other, no echo address among them (R145). -/
def Obligations.WriteInternalMemory : Prop :=
  ∀ (addr : Addr) (data : Byte) (s : State), s.Ready →
    ∀ i ∈ [Instr.wrInternal addr data, .wrInternalHigh addr data, .wrInternalFe80 addr data, .wrInternalFe00 addr data],
      i.wf = true →
      DecodesAlways (.write addr.toNat data.toNat) i ∧
      ∃ t, exec i s = .next t ∧ OnlyIntWritten s t ∧
        ∀ a, t.intByte a = if a = addr.toNat then data else s.intByte a

/-- WR_DIV sets DIV to 0x00 whatever the data, and changes nothing else, `dividerCounter` included (42_address_space.md
section 3; that `dividerCounter` stays is the spec's own decision D15). -/
def Obligations.WriteDivClearsIt : Prop :=
  ∀ (data : Byte) (s : State), s.Ready →
    DecodesAlways (.write 0xFF04 data.toNat) (.wrDiv data) ∧
    exec (.wrDiv data) s = .next { s with div := 0, response := some .done }

/-- WR_TIMA and WR_TMA store their byte in TIMA and in TMA, and change nothing else (42_address_space.md section 3; that the
timer holds them is the spec's own decision D8). -/
def Obligations.WriteTimaAndTma : Prop :=
  ∀ (data : Byte) (s : State), s.Ready →
    DecodesAlways (.write 0xFF05 data.toNat) (.wrTima data) ∧
    exec (.wrTima data) s = .next { s with tima := data, response := some .done } ∧
    DecodesAlways (.write 0xFF06 data.toNat) (.wrTma data) ∧
    exec (.wrTma data) s = .next { s with tma := data, response := some .done }

/-- WR_TMC stores the raw byte, and reloads `timerCounter` from the table in full when bits 1:0 changed and only then, the
timer enabled or not; nothing else changes (42_address_space.md section 3; comparing by the select is the spec's own decision
D23). -/
def Obligations.WriteTmcReloadsOnFrequencyChange : Prop :=
  ∀ (data : Byte) (s : State), s.Ready →
    DecodesAlways (.write 0xFF07 data.toNat) (.wrTmc data) ∧
    exec (.wrTmc data) s = .next { s with
      tmc := data
      timerCounter :=
        if data.toNat % 4 = s.tmc.toNat % 4 then s.timerCounter
        else if data.toNat % 4 = 0 then 1024 else if data.toNat % 4 = 1 then 16 else if data.toNat % 4 = 2 then 64 else 256
      response := some .done }

/-- Doing the same WRITE twice leaves the state it left the first time, whatever the address and the data (20_memory.md
section 3, derived there). -/
def Obligations.WritesAreIdempotent : Prop :=
  ∀ (s t : State) (addr data : Nat), s.Ready → addr ≤ 0xFFFF → data ≤ 0xFF →
    step (s.withRequest (.write addr data)) = .next t → step (t.withRequest (.write addr data)) = .next t

/-- The last WRITE is what a READ finds, and it is found nowhere else: after a WRITE to an address that stores its data, a READ
of it returns the data, and a READ of any other address but a mirrored one is answered as before (20_memory.md section 5,
derived there). -/
def Obligations.ReadFindsTheLastWrite : Prop :=
  ∀ (s t : State) (addr data : Nat), s.Ready → StoresData s addr → data ≤ 0xFF →
    step (s.withRequest (.write addr data)) = .next t →
    (∃ u, step (t.withRequest (.read addr)) = .next u ∧ u.response = some (.byte (BitVec.ofNat 8 data))) ∧
    ∀ other, other ≤ 0xFFFF → other ≠ addr → ¬ (0xE000 ≤ addr ∧ addr < 0xFE00 ∧ other = addr - 0x2000) →
      ∃ u v, step (t.withRequest (.read other)) = .next u ∧ step (s.withRequest (.read other)) = .next v ∧
        u.response = v.response

/-! ## The timer -/

/-- FREQ_TABLE by TMC[1:0], the enable by TMC[2], and nothing by TMC[7:3]: a TICK of a state whose TMC differs in those bits
only gives the same state and response, but for those bits, and a WRITE of TMC there gives the same state (R160). -/
def Obligations.FrequencyAndEnableOfTmc : Prop :=
  freqTable 0b00 = 1024 ∧ freqTable 0b01 = 16 ∧ freqTable 0b10 = 64 ∧ freqTable 0b11 = 256 ∧
  (∀ tmc : Byte, (frequencySelect tmc).toNat = tmc.toNat % 4) ∧
  (∀ tmc : Byte, timerEnabled tmc = true ↔ tmc.toNat / 4 % 2 = 1) ∧
  (∀ (s t : State) (cycles : BitVec 16) (tmc : Byte), tmc.toNat % 8 = s.tmc.toNat % 8 →
    exec (.tick cycles) s = .next t → exec (.tick cycles) { s with tmc := tmc } = .next { t with tmc := tmc }) ∧
  (∀ (s t : State) (data tmc : Byte), s.Ready → tmc.toNat % 8 = s.tmc.toNat % 8 →
    exec (.wrTmc data) s = .next t → exec (.wrTmc data) { s with tmc := tmc } = .next t)

/-- A TICK completes with its interrupt-request bit and writes no state but the divider's and the timer's
(43_timer.md; the response bit and the range of the count are the spec's own decisions D16 and D17). -/
def Obligations.TickCompletesAndWritesOnlyTheCounters : Prop :=
  ∀ (cycles : BitVec 16) (s : State), s.Ready →
    DecodesAlways (.tick cycles.toNat) (.tick cycles) ∧
    ∃ t irq, exec (.tick cycles) s = .next t ∧ t.response = some (.irq irq) ∧
      OnlyCountersWritten s t ∧ (timerEnabled s.tmc = false → irq = false ∧ t.tima = s.tima ∧ t.timerCounter = s.timerCounter)

/-- DividerStep: the cycles are added; at 255 or more the counter goes to 0, the excess lost, and DIV is incremented modulo
256, once; whatever TMC holds; outside the timer's own step nothing else changes (R163). -/
def Obligations.TickDividerStep : Prop :=
  ∀ (cycles : BitVec 16) (s : State), s.Ready →
    ∃ t, exec (.tick cycles) s = .next t ∧ OnlyCountersWritten s t ∧
      (255 ≤ s.dividerCounter + cycles.toNat → t.dividerCounter = 0 ∧ t.div.toNat = (s.div.toNat + 1) % 256) ∧
      (s.dividerCounter + cycles.toNat < 255 → t.dividerCounter = s.dividerCounter + cycles.toNat ∧ t.div = s.div)

/-- TimerStep: with TMC[2] set the countdown loses the cycles; at 0 or less it reloads in full and TIMA is incremented, or, from
0xFF, loaded from TMA with `irq`; with TMC[2] clear countdown and TIMA are frozen and `irq` is not raised; outside the
divider's own step nothing else changes (R164). -/
def Obligations.TickTimerStep : Prop :=
  ∀ (cycles : BitVec 16) (s : State), s.Ready →
    ∃ t, exec (.tick cycles) s = .next t ∧ OnlyCountersWritten s t ∧
      (timerEnabled s.tmc = false → t.timerCounter = s.timerCounter ∧ t.tima = s.tima ∧ t.response = some (.irq false)) ∧
      (timerEnabled s.tmc = true → 0 < s.timerCounter - cycles.toNat →
        t.timerCounter = s.timerCounter - cycles.toNat ∧ t.tima = s.tima ∧ t.response = some (.irq false)) ∧
      (timerEnabled s.tmc = true → s.timerCounter - cycles.toNat ≤ 0 →
        t.timerCounter = freqTable (frequencySelect s.tmc) ∧
        (s.tima = 0xFF → t.tima = s.tma ∧ t.response = some (.irq true)) ∧
        (s.tima ≠ 0xFF → t.tima.toNat = s.tima.toNat + 1 ∧ t.response = some (.irq false)))

/-- A TICK of 0 cycles changes nothing and raises nothing, where the counters are in their ranges (43_timer.md, a consequence
of the ranges that the spec derives). -/
def Obligations.TickOfZeroChangesNothing : Prop :=
  ∀ s : State, s.Ready → s.TimerInv → exec (.tick 0) s = .next { s with response := some (.irq false) }

/-- The interrupt request is raised by a TICK that finds the timer enabled, its countdown used up and TIMA at 0xFF, and by
nothing else (43_timer.md, derived there). -/
def Obligations.IrqOnlyFromTimaOverflow : Prop :=
  ∀ (i : Instr) (s t : State), exec i s = .next t →
    (t.response = some (.irq true) ↔
      ∃ cycles, i = .tick cycles ∧ s.Ready ∧ timerEnabled s.tmc = true ∧ s.tima = 0xFF ∧
        s.timerCounter ≤ (cycles.toNat : Int))

/-- The rate of DIV: from a counter of 0, TICKs of `n` cycles increment DIV for the first time at the ceil(255/n)-th, whatever
`n` (43_timer.md, derived there). -/
def Obligations.DividerRate : Prop :=
  ∀ (n : Nat) (s : State), 1 ≤ n → n ≤ 0xFFFF → s.Ready → s.dividerCounter = 0 →
    let k := (255 + (n - 1)) / n
    (∀ j, j < k → ∃ t, core.run j (withTicks n j s) = .next t ∧ t.div = s.div ∧ t.dividerCounter = (j * n : Nat)) ∧
    ∃ t, core.run k (withTicks n k s) = .next t ∧ t.div = s.div + 1 ∧ t.dividerCounter = 0

/-- The rate of TIMA: from a full countdown, TICKs of `n` cycles advance an enabled TIMA for the first time at the
ceil(FREQ_TABLE/n)-th, whatever `n` (43_timer.md, derived there). -/
def Obligations.TimaRate : Prop :=
  ∀ (n : Nat) (s : State), 1 ≤ n → n ≤ 0xFFFF → s.Ready → timerEnabled s.tmc = true →
    s.timerCounter = freqTable (frequencySelect s.tmc) →
    let k := (freqTable (frequencySelect s.tmc) + (n - 1)) / n
    (∀ j, j < k → ∃ t, core.run j (withTicks n j s) = .next t ∧ t.tima = s.tima ∧
      t.timerCounter = s.timerCounter - (j * n : Nat)) ∧
    ∃ t, core.run k (withTicks n k s) = .next t ∧ t.tima = (if s.tima = 0xFF then s.tma else s.tima + 1) ∧
      t.timerCounter = s.timerCounter

/-! ## Rules of the whole machine -/

/-- Each register is written by its own instructions only, LOAD for the cartridge and RESET for the rest apart: what changed
tells which instruction ran (10_state.md sections 3 to 7). -/
def Obligations.RegistersChangeOnlyByTheirWriters : Prop :=
  ∀ (i : Instr) (s t : State), exec i s = .next t →
    (SameCart s t ∨ ∃ src, i = .load (some src)) ∧
    (t.romBankingModeActive = s.romBankingModeActive ∨ i = .reset ∨ ∃ a d, i = .wrMbc1Mode a d) ∧
    (t.currentROMBank = s.currentROMBank ∨ i = .reset ∨
      ∃ a d, i = .wrMbc1Romlo a d ∨ i = .wrMbc1Hi a d ∨ i = .wrMbc2Romlo a d) ∧
    (t.ramBankingEnabled = s.ramBankingEnabled ∨ i = .reset ∨ ∃ a d, i = .wrMbc1Ramen a d ∨ i = .wrMbc2Ramen a d) ∧
    (t.currentRAMBank = s.currentRAMBank ∨ i = .reset ∨ ∃ a d, i = .wrMbc1Hi a d ∨ i = .wrMbc1Mode a d) ∧
    (t.internal = s.internal ∨ i = .reset ∨
      ∃ a d, i = .wrInternal a d ∨ i = .wrInternalHigh a d ∨ i = .wrInternalFe80 a d ∨ i = .wrInternalFe00 a d ∨
        i = .wrEcho a d) ∧
    (t.external = s.external ∨ i = .reset ∨ ∃ a d, i = .wrExtram a d) ∧
    (t.div = s.div ∨ i = .reset ∨ (∃ d, i = .wrDiv d) ∨ ∃ c, i = .tick c) ∧
    (t.tima = s.tima ∨ i = .reset ∨ (∃ d, i = .wrTima d) ∨ ∃ c, i = .tick c) ∧
    (t.tma = s.tma ∨ i = .reset ∨ ∃ d, i = .wrTma d) ∧
    (t.tmc = s.tmc ∨ i = .reset ∨ ∃ d, i = .wrTmc d) ∧
    (t.dividerCounter = s.dividerCounter ∨ i = .reset ∨ ∃ c, i = .tick c) ∧
    (t.timerCounter = s.timerCounter ∨ i = .reset ∨ (∃ d, i = .wrTmc d) ∨ ∃ c, i = .tick c) ∧
    (t.phase = s.phase ∨ i = .reset ∨ ∃ src, i = .load (some src)) ∧
    (t.fault = s.fault ∨ i = .load none ∨ ∃ a, i = .rdRomx a)

/-- Nothing reads `cart.ramBankCount`: with another value of it every instruction does the same, and only a LOAD overwrites it
(10_state.md section 3, derived there). -/
def Obligations.RamBankCountIsNeverRead : Prop :=
  ∀ (i : Instr) (s t : State) (v : Byte), exec i s = .next t → (∀ src, i ≠ .load (some src)) →
    exec i { s with cartRamBankCount := v } = .next { t with cartRamBankCount := v }

/-! ## Reserved words and pseudo-requests -/

/-- Over all words, the reserved ones are exactly these: a BUS key with the mode code 0b11 and a WRITE below 0x8000, a SYS word
of kind 0b11, and an operand that is not 0 on LOAD or RESET; no other word fails to decode, and none for another reason
(30_encoding.md section 4; the spec's own decisions D2 and D28). -/
def Obligations.ReservedWordsAreExactlyThese : Prop :=
  (∀ (mode : BitVec 2) (dir : Dir) (addr : Addr) (data : Byte) (e : DecodeError),
    decode (busFrame mode dir addr data) = .error e ↔
      e = .reserved ∧ mode = 0b11 ∧ dir = .write ∧ addr.toNat < 0x8000) ∧
  (∀ (kind : BitVec 2) (operand : BitVec 16) (source : Option (List Byte)) (e : DecodeError),
    decode (sysFrame kind operand source) = .error e ↔
      e = .reserved ∧ (kind = 0b11 ∨ (kind = 0b00 ∨ kind = 0b01) ∧ operand ≠ 0))

/-- The pseudo-requests have their named effects in the bank modes that R91 lists, and change nothing else: ENRAM and DISRAM
(MBC1, MBC2), ROMMODE, RAMMODE, RAMBANK (MBC1; RAMBANK leaves RAM banking mode), ROMLO (MBC1 low 5 bits, MBC2 low 4 bits), ROMHI
(MBC1 in ROM banking mode), TSTART, TSTOP, DIVRST (any).  Where R91 lists no effect, MBC2's for the windows from 0x4000 and
every ROM-range one without a controller, they change nothing (30_encoding.md section 5, derived there; the notation is the
spec's own decision D25, that DIVRST keeps `dividerCounter` its decision D15; an operand `f` as a byte is log entry 23). -/
def Obligations.PseudoRequestsHaveTheirNamedEffects : Prop :=
  ∀ (s : State) (n f : Byte), s.Ready →
    (s.cartBankMode ≠ .none →
      Expands .enram s { s with ramBankingEnabled := true } ∧ Expands .disram s { s with ramBankingEnabled := false }) ∧
    (s.cartBankMode = .mbc1 →
      Expands .rommode s { s with romBankingModeActive := true, currentRAMBank := 0 } ∧
      Expands .rammode s { s with romBankingModeActive := false } ∧
      Expands (.rambank n) s { s with romBankingModeActive := false, currentRAMBank := BitVec.ofNat 2 (n.toNat % 4) } ∧
      Expands (.romlo n) s
        { s with currentROMBank := BitVec.ofNat 8 (max 1 (s.currentROMBank.toNat / 32 * 32 + n.toNat % 32)) } ∧
      (s.romBankingModeActive = true → Expands (.romhi n) s
        { s with currentROMBank := BitVec.ofNat 8 (max 1 (s.currentROMBank.toNat % 32 + n.toNat / 32 * 32)) })) ∧
    (s.cartBankMode = .mbc2 →
      Expands (.romlo n) s { s with currentROMBank := BitVec.ofNat 8 (max 1 (n.toNat % 16)) } ∧
      ∀ p ∈ [Pseudo.rommode, .rammode, .romhi n, .rambank n], Expands p s s) ∧
    (s.cartBankMode = .none →
      ∀ p ∈ [Pseudo.enram, .disram, .rommode, .rammode, .romlo n, .romhi n, .rambank n], Expands p s s) ∧
    (∀ c : Int, c = (if f.toNat % 4 = s.tmc.toNat % 4 then s.timerCounter else freqTable (frequencySelect f)) →
      Expands (.tstart f) s { s with tmc := BitVec.ofNat 8 (4 + f.toNat % 4), timerCounter := c } ∧
      Expands (.tstop f) s { s with tmc := BitVec.ofNat 8 (f.toNat % 4), timerCounter := c }) ∧
    Expands .divrst s { s with div := 0 }
end

