-- ==== Sys2Proof/Laws/Decode.lean ====
section
/-! SUPPORT. The opcode map's mask tests as arithmetic: `k &&& mask = pat` says what one field of `k` is. -/

namespace Sys2Proof

/-- A mask of `h` one bits above `l` zero bits picks out the field `k / 2^l % 2^h`. -/
theorem and_field (k h l : Nat) : k &&& ((2 ^ h - 1) * 2 ^ l) = k / 2 ^ l % 2 ^ h * 2 ^ l := by
  apply Nat.eq_of_testBit_eq
  intro j
  rw [Nat.testBit_and, Nat.testBit_mul_two_pow, Nat.testBit_mul_two_pow, Nat.testBit_two_pow_sub_one, Nat.testBit_mod_two_pow,
    Nat.testBit_div_two_pow]
  by_cases hj : l ≤ j
  · have e : j - l + l = j := by omega
    rw [e]
    by_cases h2 : j - l < h <;> simp [hj, h2]
  · simp [hj]

/-! ## The masks of the opcode map -/

theorem and_10000 (k : Nat) : k &&& 0x10000 = k / 65536 % 2 * 65536 := and_field k 1 16
theorem and_18000 (k : Nat) : k &&& 0x18000 = k / 32768 % 4 * 32768 := and_field k 2 15
theorem and_1C000 (k : Nat) : k &&& 0x1C000 = k / 16384 % 8 * 16384 := and_field k 3 14
theorem and_1E000 (k : Nat) : k &&& 0x1E000 = k / 8192 % 16 * 8192 := and_field k 4 13
theorem and_1FF00 (k : Nat) : k &&& 0x1FF00 = k / 256 % 512 * 256 := and_field k 9 8
theorem and_1FF80 (k : Nat) : k &&& 0x1FF80 = k / 128 % 1024 * 128 := and_field k 10 7
theorem and_1FFE0 (k : Nat) : k &&& 0x1FFE0 = k / 32 % 4096 * 32 := and_field k 12 5
theorem and_1FFFC (k : Nat) : k &&& 0x1FFFC = k / 4 % 32768 * 4 := and_field k 15 2
theorem and_1FFFF (k : Nat) : k &&& 0x1FFFF = k % 131072 := Nat.and_two_pow_sub_one_eq_mod k 17
theorem and_78000 (k : Nat) : k &&& 0x78000 = k / 32768 % 16 * 32768 := and_field k 4 15
theorem and_7C000 (k : Nat) : k &&& 0x7C000 = k / 16384 % 32 * 16384 := and_field k 5 14
theorem and_7E000 (k : Nat) : k &&& 0x7E000 = k / 8192 % 64 * 8192 := and_field k 6 13
theorem and_30000 (k : Nat) : k &&& 0x30000 = k / 65536 % 4 * 65536 := and_field k 2 16
theorem and_7E010 (k : Nat) : k &&& 0x7E010 = k / 8192 % 64 * 8192 + k / 16 % 2 * 16 := by
  have e : (0x7E010 : Nat) = 0x7E000 ||| 0x00010 := rfl
  have h16 : k &&& 0x00010 = k / 16 % 2 * 16 := and_field k 1 4
  have hlt : k / 16 % 2 * 16 < 2 ^ 13 := by omega
  have key := Nat.two_pow_add_eq_or_of_lt hlt (k / 8192 % 64)
  rw [e, Nat.and_or_distrib_left, and_7E000, h16, Nat.mul_comm (k / 8192 % 64) 8192]
  exact key.symm

theorem takes_1FFFC_0FF04 (k : Nat) : (k &&& 0x1FFFC = 0x0FF04) ↔ k / 4 % 32768 = 16321 := by rw [and_1FFFC]; omega
theorem takes_1FF00_0FF00 (k : Nat) : (k &&& 0x1FF00 = 0x0FF00) ↔ k / 256 % 512 = 255 := by rw [and_1FF00]; omega
theorem takes_1FFE0_0FE80 (k : Nat) : (k &&& 0x1FFE0 = 0x0FE80) ↔ k / 32 % 4096 = 2036 := by rw [and_1FFE0]; omega
theorem takes_1FF80_0FE00 (k : Nat) : (k &&& 0x1FF80 = 0x0FE00) ↔ k / 128 % 1024 = 508 := by rw [and_1FF80]; omega
theorem takes_1FF00_0FE00 (k : Nat) : (k &&& 0x1FF00 = 0x0FE00) ↔ k / 256 % 512 = 254 := by rw [and_1FF00]; omega
theorem takes_1C000_00000 (k : Nat) : (k &&& 0x1C000 = 0x00000) ↔ k / 16384 % 8 = 0 := by rw [and_1C000]; omega
theorem takes_1C000_04000 (k : Nat) : (k &&& 0x1C000 = 0x04000) ↔ k / 16384 % 8 = 1 := by rw [and_1C000]; omega
theorem takes_1E000_0A000 (k : Nat) : (k &&& 0x1E000 = 0x0A000) ↔ k / 8192 % 16 = 5 := by rw [and_1E000]; omega
theorem takes_10000_00000 (k : Nat) : (k &&& 0x10000 = 0x00000) ↔ k / 65536 % 2 = 0 := by rw [and_10000]; omega
theorem takes_1FFFF_1FF04 (k : Nat) : (k &&& 0x1FFFF = 0x1FF04) ↔ k % 131072 = 130820 := by rw [and_1FFFF]
theorem takes_1FFFF_1FF05 (k : Nat) : (k &&& 0x1FFFF = 0x1FF05) ↔ k % 131072 = 130821 := by rw [and_1FFFF]
theorem takes_1FFFF_1FF06 (k : Nat) : (k &&& 0x1FFFF = 0x1FF06) ↔ k % 131072 = 130822 := by rw [and_1FFFF]
theorem takes_1FFFF_1FF07 (k : Nat) : (k &&& 0x1FFFF = 0x1FF07) ↔ k % 131072 = 130823 := by rw [and_1FFFF]
theorem takes_1FF00_1FF00 (k : Nat) : (k &&& 0x1FF00 = 0x1FF00) ↔ k / 256 % 512 = 511 := by rw [and_1FF00]; omega
theorem takes_1FFE0_1FE80 (k : Nat) : (k &&& 0x1FFE0 = 0x1FE80) ↔ k / 32 % 4096 = 4084 := by rw [and_1FFE0]; omega
theorem takes_1FF80_1FE00 (k : Nat) : (k &&& 0x1FF80 = 0x1FE00) ↔ k / 128 % 1024 = 1020 := by rw [and_1FF80]; omega
theorem takes_1FF00_1FE00 (k : Nat) : (k &&& 0x1FF00 = 0x1FE00) ↔ k / 256 % 512 = 510 := by rw [and_1FF00]; omega
theorem takes_1E000_1E000 (k : Nat) : (k &&& 0x1E000 = 0x1E000) ↔ k / 8192 % 16 = 15 := by rw [and_1E000]; omega
theorem takes_1E000_1A000 (k : Nat) : (k &&& 0x1E000 = 0x1A000) ↔ k / 8192 % 16 = 13 := by rw [and_1E000]; omega
theorem takes_7E000_30000 (k : Nat) : (k &&& 0x7E000 = 0x30000) ↔ k / 8192 % 64 = 24 := by rw [and_7E000]; omega
theorem takes_7E000_32000 (k : Nat) : (k &&& 0x7E000 = 0x32000) ↔ k / 8192 % 64 = 25 := by rw [and_7E000]; omega
theorem takes_7E000_34000 (k : Nat) : (k &&& 0x7E000 = 0x34000) ↔ k / 8192 % 64 = 26 := by rw [and_7E000]; omega
theorem takes_7E000_36000 (k : Nat) : (k &&& 0x7E000 = 0x36000) ↔ k / 8192 % 64 = 27 := by rw [and_7E000]; omega
theorem takes_7E010_50000 (k : Nat) : (k &&& 0x7E010 = 0x50000) ↔ k / 8192 % 64 = 40 ∧ k / 16 % 2 = 0 := by rw [and_7E010]; omega
theorem takes_7E010_50010 (k : Nat) : (k &&& 0x7E010 = 0x50010) ↔ k / 8192 % 64 = 40 ∧ k / 16 % 2 = 1 := by rw [and_7E010]; omega
theorem takes_7E000_52000 (k : Nat) : (k &&& 0x7E000 = 0x52000) ↔ k / 8192 % 64 = 41 := by rw [and_7E000]; omega
theorem takes_7C000_54000 (k : Nat) : (k &&& 0x7C000 = 0x54000) ↔ k / 16384 % 32 = 21 := by rw [and_7C000]; omega
theorem takes_78000_10000 (k : Nat) : (k &&& 0x78000 = 0x10000) ↔ k / 32768 % 16 = 2 := by rw [and_78000]; omega
theorem takes_18000_18000 (k : Nat) : (k &&& 0x18000 = 0x18000) ↔ k / 32768 % 4 = 3 := by rw [and_18000]; omega

/-! ## The map as one chain -/

/-- The first match of the opcode map, row by row, with each mask test as the fields it compares (R85, R86). -/
theorem decodeBus_chain (k : Nat) (d : Byte) :
    decodeBus k d =
      if k / 4 % 32768 = 16321 then .ok (.rdTimer (BitVec.ofNat 16 k))
      else if k / 256 % 512 = 255 then .ok (.rdInternalHigh (BitVec.ofNat 16 k))
      else if k / 32 % 4096 = 2036 then .ok (.rdInternalFe80 (BitVec.ofNat 16 k))
      else if k / 128 % 1024 = 508 then .ok (.rdInternalFe00 (BitVec.ofNat 16 k))
      else if k / 256 % 512 = 254 then .ok (.rdUnusable (BitVec.ofNat 16 k))
      else if k / 16384 % 8 = 0 then .ok (.rdRom0 (BitVec.ofNat 16 k))
      else if k / 16384 % 8 = 1 then .ok (.rdRomx (BitVec.ofNat 16 k))
      else if k / 8192 % 16 = 5 then .ok (.rdExtram (BitVec.ofNat 16 k))
      else if k / 65536 % 2 = 0 then .ok (.rdInternal (BitVec.ofNat 16 k))
      else if k % 131072 = 130820 then .ok (.wrDiv d)
      else if k % 131072 = 130821 then .ok (.wrTima d)
      else if k % 131072 = 130822 then .ok (.wrTma d)
      else if k % 131072 = 130823 then .ok (.wrTmc d)
      else if k / 256 % 512 = 511 then .ok (.wrInternalHigh (BitVec.ofNat 16 k) d)
      else if k / 32 % 4096 = 4084 then .ok (.wrInternalFe80 (BitVec.ofNat 16 k) d)
      else if k / 128 % 1024 = 1020 then .ok (.wrInternalFe00 (BitVec.ofNat 16 k) d)
      else if k / 256 % 512 = 510 then .ok (.wrUnusable (BitVec.ofNat 16 k) d)
      else if k / 8192 % 16 = 15 then .ok (.wrEcho (BitVec.ofNat 16 k) d)
      else if k / 8192 % 16 = 13 then .ok (.wrExtram (BitVec.ofNat 16 k) d)
      else if k / 8192 % 64 = 24 then .ok (.wrMbc1Ramen (BitVec.ofNat 16 k) d)
      else if k / 8192 % 64 = 25 then .ok (.wrMbc1Romlo (BitVec.ofNat 16 k) d)
      else if k / 8192 % 64 = 26 then .ok (.wrMbc1Hi (BitVec.ofNat 16 k) d)
      else if k / 8192 % 64 = 27 then .ok (.wrMbc1Mode (BitVec.ofNat 16 k) d)
      else if k / 8192 % 64 = 40 ∧ k / 16 % 2 = 0 then .ok (.wrMbc2Ramen (BitVec.ofNat 16 k) d)
      else if k / 8192 % 64 = 40 ∧ k / 16 % 2 = 1 then .ok (.wrMbc2RamenIgn (BitVec.ofNat 16 k) d)
      else if k / 8192 % 64 = 41 then .ok (.wrMbc2Romlo (BitVec.ofNat 16 k) d)
      else if k / 16384 % 32 = 21 then .ok (.wrMbc2Nop (BitVec.ofNat 16 k) d)
      else if k / 32768 % 16 = 2 then .ok (.wrNoneNop (BitVec.ofNat 16 k) d)
      else if k / 32768 % 4 = 3 then .ok (.wrInternal (BitVec.ofNat 16 k) d)
      else .error .reserved := by
  simp only [decodeBus, busRows, readRows, writeRows, commandRows, List.cons_append, List.nil_append, decodeRows,
    takes_1FFFC_0FF04, takes_1FF00_0FF00, takes_1FFE0_0FE80, takes_1FF80_0FE00, takes_1FF00_0FE00, takes_1C000_00000,
    takes_1C000_04000, takes_1E000_0A000, takes_10000_00000, takes_1FFFF_1FF04, takes_1FFFF_1FF05, takes_1FFFF_1FF06,
    takes_1FFFF_1FF07, takes_1FF00_1FF00, takes_1FFE0_1FE80, takes_1FF80_1FE00, takes_1FF00_1FE00, takes_1E000_1E000,
    takes_1E000_1A000, takes_7E000_30000, takes_7E000_32000, takes_7E000_34000, takes_7E000_36000, takes_7E010_50000,
    takes_7E010_50010, takes_7E000_52000, takes_7C000_54000, takes_78000_10000, takes_18000_18000]

/-! ## Words put together and taken apart -/

theorem busKey_lt (mode : BitVec 2) (dir : Dir) (addr : Addr) : busKey mode dir addr < 0x80000 := by
  have h1 := mode.isLt
  have h2 := addr.isLt
  unfold busKey
  cases dir <;> simp only [Dir.bit] <;> omega

theorem busKey_read (mode : BitVec 2) (addr : Addr) : busKey mode .read addr = mode.toNat * 0x20000 + addr.toNat := by
  simp only [busKey, Dir.bit]; omega

theorem busKey_write (mode : BitVec 2) (addr : Addr) :
    busKey mode .write addr = mode.toNat * 0x20000 + 0x10000 + addr.toNat := by
  simp only [busKey, Dir.bit]

theorem busKey_write_none (addr : Addr) : busKey 0 .write addr = 0x10000 + addr.toNat := busKey_write 0 addr

theorem busKey_write_mbc1 (addr : Addr) : busKey 1 .write addr = 0x30000 + addr.toNat := busKey_write 1 addr

theorem busKey_write_mbc2 (addr : Addr) : busKey 2 .write addr = 0x50000 + addr.toNat := busKey_write 2 addr

theorem Addr.within_iff {lo hi : Nat} {addr : Addr} : Addr.within lo hi addr = true ↔ lo ≤ addr.toNat ∧ addr.toNat ≤ hi := by
  simp only [Addr.within, Bool.and_eq_true, decide_eq_true_eq]

/-- Address bit 4, which R87 reads (R115, R116). -/
theorem addr_bit4 (addr : Addr) : addr.getLsbD 4 = decide (addr.toNat / 16 % 2 = 1) := by
  rw [BitVec.getLsbD, Nat.testBit_eq_decide_div_mod_eq]

/-- A BUS frame decodes by its key and its data byte (R83). -/
theorem decode_busFrame (mode : BitVec 2) (dir : Dir) (addr : Addr) (data : Byte) :
    decode (busFrame mode dir addr data) = decodeBus (busKey mode dir addr) data := by
  have hk := busKey_lt mode dir addr
  have hd := data.isLt
  have e : (BitVec.ofNat 27 (busKey mode dir addr * 0x100 + data.toNat)).toNat = busKey mode dir addr * 0x100 + data.toNat := by
    rw [BitVec.toNat_ofNat]; omega
  have hq : (busKey mode dir addr * 0x100 + data.toNat) / 0x100 = busKey mode dir addr := by omega
  have hr : BitVec.ofNat 8 (busKey mode dir addr * 0x100 + data.toNat) = data := by
    apply BitVec.eq_of_toNat_eq; rw [BitVec.toNat_ofNat]; omega
  simp only [busFrame, decode, e, hq, hr]

/-- The address field of a key is the address (R81). -/
theorem addr_of_busKey (mode : BitVec 2) (dir : Dir) (addr : Addr) : BitVec.ofNat 16 (busKey mode dir addr) = addr := by
  have h2 := addr.isLt
  apply BitVec.eq_of_toNat_eq
  rw [BitVec.toNat_ofNat]
  unfold busKey
  cases dir <;> simp only [Dir.bit] <;> omega

/-- A SYS frame decodes by its kind and its operand (R84). -/
theorem decode_sysFrame (kind : BitVec 2) (operand : BitVec 16) (source : Option (List Byte)) :
    decode (sysFrame kind operand source) =
      if kind = 0 then (if operand = 0 then .ok (.load source) else .error .reserved)
      else if kind = 1 then (if operand = 0 then .ok .reset else .error .reserved)
      else if kind = 2 then .ok (.tick operand)
      else .error .reserved := by
  have hk := kind.isLt
  have ho := operand.isLt
  have e : (BitVec.ofNat 18 (kind.toNat * 0x10000 + operand.toNat)).toNat = kind.toNat * 0x10000 + operand.toNat := by
    rw [BitVec.toNat_ofNat]; omega
  have m : (kind.toNat * 0x10000 + operand.toNat) &&& 0x30000 = kind.toNat * 0x10000 := by
    rw [and_30000]; omega
  have r : (kind.toNat * 0x10000 + operand.toNat) % 0x10000 = operand.toNat := by omega
  have t : BitVec.ofNat 16 (kind.toNat * 0x10000 + operand.toNat) = operand := by
    apply BitVec.eq_of_toNat_eq; rw [BitVec.toNat_ofNat]; omega
  have k0 : (kind.toNat * 0x10000 = 0x00000) ↔ kind = 0 := by rw [← BitVec.toNat_inj]; show _ ↔ kind.toNat = 0; omega
  have k1 : (kind.toNat * 0x10000 = 0x10000) ↔ kind = 1 := by rw [← BitVec.toNat_inj]; show _ ↔ kind.toNat = 1; omega
  have k2 : (kind.toNat * 0x10000 = 0x20000) ↔ kind = 2 := by rw [← BitVec.toNat_inj]; show _ ↔ kind.toNat = 2; omega
  have o0 : (operand.toNat = 0) ↔ operand = 0 := by rw [← BitVec.toNat_inj]; rfl
  simp only [sysFrame, decode, decodeSys, e, m, r, t, k0, k1, k2, o0]

/-- A READ within the 16-bit space decodes by its key (R81). -/
theorem decodeRequest_read (m : BankMode) {addr : Nat} (data : Nat) (h : addr ≤ 0xFFFF) :
    decodeRequest m (.bus .read addr data) = decodeBus (busKey m.code .read (BitVec.ofNat 16 addr)) 0 := by
  simp only [decodeRequest, formFrame, h, if_true, decode_busFrame]

/-- A WRITE of a byte within the 16-bit space decodes by its key (R81). -/
theorem decodeRequest_write (m : BankMode) {addr data : Nat} (ha : addr ≤ 0xFFFF) (hd : data ≤ 0xFF) :
    decodeRequest m (.bus .write addr data) =
      decodeBus (busKey m.code .write (BitVec.ofNat 16 addr)) (BitVec.ofNat 8 data) := by
  simp only [decodeRequest, formFrame, ha, hd, if_true, decode_busFrame]

end Sys2Proof
end

