-- ==== Sys2Proof/Laws/State.lean ====
section
/-! SUPPORT. One lemma per field for each named update of State, so that no proof unfolds a record update. -/

namespace Sys2Proof.Machine

/-! ## answer -/

@[simp] theorem State.answer_cartBytes (r : Response) (s : State) : (s.answer r).cartBytes = s.cartBytes := rfl
@[simp] theorem State.answer_cartBankMode (r : Response) (s : State) : (s.answer r).cartBankMode = s.cartBankMode := rfl
@[simp] theorem State.answer_cartRamBankCount (r : Response) (s : State) : (s.answer r).cartRamBankCount = s.cartRamBankCount := rfl
@[simp] theorem State.answer_romBankingModeActive (r : Response) (s : State) : (s.answer r).romBankingModeActive = s.romBankingModeActive := rfl
@[simp] theorem State.answer_currentROMBank (r : Response) (s : State) : (s.answer r).currentROMBank = s.currentROMBank := rfl
@[simp] theorem State.answer_ramBankingEnabled (r : Response) (s : State) : (s.answer r).ramBankingEnabled = s.ramBankingEnabled := rfl
@[simp] theorem State.answer_currentRAMBank (r : Response) (s : State) : (s.answer r).currentRAMBank = s.currentRAMBank := rfl
@[simp] theorem State.answer_internal (r : Response) (s : State) : (s.answer r).internal = s.internal := rfl
@[simp] theorem State.answer_external (r : Response) (s : State) : (s.answer r).external = s.external := rfl
@[simp] theorem State.answer_div (r : Response) (s : State) : (s.answer r).div = s.div := rfl
@[simp] theorem State.answer_tima (r : Response) (s : State) : (s.answer r).tima = s.tima := rfl
@[simp] theorem State.answer_tma (r : Response) (s : State) : (s.answer r).tma = s.tma := rfl
@[simp] theorem State.answer_tmc (r : Response) (s : State) : (s.answer r).tmc = s.tmc := rfl
@[simp] theorem State.answer_dividerCounter (r : Response) (s : State) : (s.answer r).dividerCounter = s.dividerCounter := rfl
@[simp] theorem State.answer_timerCounter (r : Response) (s : State) : (s.answer r).timerCounter = s.timerCounter := rfl
@[simp] theorem State.answer_phase (r : Response) (s : State) : (s.answer r).phase = s.phase := rfl
@[simp] theorem State.answer_fault (r : Response) (s : State) : (s.answer r).fault = s.fault := rfl
@[simp] theorem State.answer_inbox (r : Response) (s : State) : (s.answer r).inbox = s.inbox := rfl
@[simp] theorem State.answer_response (r : Response) (s : State) : (s.answer r).response = some r := rfl
@[simp] theorem State.answer_refusals (r : Response) (s : State) : (s.answer r).refusals = s.refusals := rfl

/-! ## recordRefusal -/

@[simp] theorem State.recordRefusal_cartBytes (w : RefuseReason) (s : State) : (s.recordRefusal w).cartBytes = s.cartBytes := rfl
@[simp] theorem State.recordRefusal_cartBankMode (w : RefuseReason) (s : State) : (s.recordRefusal w).cartBankMode = s.cartBankMode := rfl
@[simp] theorem State.recordRefusal_cartRamBankCount (w : RefuseReason) (s : State) : (s.recordRefusal w).cartRamBankCount = s.cartRamBankCount := rfl
@[simp] theorem State.recordRefusal_romBankingModeActive (w : RefuseReason) (s : State) : (s.recordRefusal w).romBankingModeActive = s.romBankingModeActive := rfl
@[simp] theorem State.recordRefusal_currentROMBank (w : RefuseReason) (s : State) : (s.recordRefusal w).currentROMBank = s.currentROMBank := rfl
@[simp] theorem State.recordRefusal_ramBankingEnabled (w : RefuseReason) (s : State) : (s.recordRefusal w).ramBankingEnabled = s.ramBankingEnabled := rfl
@[simp] theorem State.recordRefusal_currentRAMBank (w : RefuseReason) (s : State) : (s.recordRefusal w).currentRAMBank = s.currentRAMBank := rfl
@[simp] theorem State.recordRefusal_internal (w : RefuseReason) (s : State) : (s.recordRefusal w).internal = s.internal := rfl
@[simp] theorem State.recordRefusal_external (w : RefuseReason) (s : State) : (s.recordRefusal w).external = s.external := rfl
@[simp] theorem State.recordRefusal_div (w : RefuseReason) (s : State) : (s.recordRefusal w).div = s.div := rfl
@[simp] theorem State.recordRefusal_tima (w : RefuseReason) (s : State) : (s.recordRefusal w).tima = s.tima := rfl
@[simp] theorem State.recordRefusal_tma (w : RefuseReason) (s : State) : (s.recordRefusal w).tma = s.tma := rfl
@[simp] theorem State.recordRefusal_tmc (w : RefuseReason) (s : State) : (s.recordRefusal w).tmc = s.tmc := rfl
@[simp] theorem State.recordRefusal_dividerCounter (w : RefuseReason) (s : State) : (s.recordRefusal w).dividerCounter = s.dividerCounter := rfl
@[simp] theorem State.recordRefusal_timerCounter (w : RefuseReason) (s : State) : (s.recordRefusal w).timerCounter = s.timerCounter := rfl
@[simp] theorem State.recordRefusal_phase (w : RefuseReason) (s : State) : (s.recordRefusal w).phase = s.phase := rfl
@[simp] theorem State.recordRefusal_fault (w : RefuseReason) (s : State) : (s.recordRefusal w).fault = s.fault := rfl
@[simp] theorem State.recordRefusal_inbox (w : RefuseReason) (s : State) : (s.recordRefusal w).inbox = s.inbox := rfl
@[simp] theorem State.recordRefusal_response (w : RefuseReason) (s : State) : (s.recordRefusal w).response = some (.refused w) := rfl
@[simp] theorem State.recordRefusal_refusals (w : RefuseReason) (s : State) : (s.recordRefusal w).refusals = s.refusals + 1 := rfl

/-! ## recordFault -/

@[simp] theorem State.recordFault_cartBytes (f : FaultRecord) (s : State) : (s.recordFault f).cartBytes = s.cartBytes := rfl
@[simp] theorem State.recordFault_cartBankMode (f : FaultRecord) (s : State) : (s.recordFault f).cartBankMode = s.cartBankMode := rfl
@[simp] theorem State.recordFault_cartRamBankCount (f : FaultRecord) (s : State) : (s.recordFault f).cartRamBankCount = s.cartRamBankCount := rfl
@[simp] theorem State.recordFault_romBankingModeActive (f : FaultRecord) (s : State) : (s.recordFault f).romBankingModeActive = s.romBankingModeActive := rfl
@[simp] theorem State.recordFault_currentROMBank (f : FaultRecord) (s : State) : (s.recordFault f).currentROMBank = s.currentROMBank := rfl
@[simp] theorem State.recordFault_ramBankingEnabled (f : FaultRecord) (s : State) : (s.recordFault f).ramBankingEnabled = s.ramBankingEnabled := rfl
@[simp] theorem State.recordFault_currentRAMBank (f : FaultRecord) (s : State) : (s.recordFault f).currentRAMBank = s.currentRAMBank := rfl
@[simp] theorem State.recordFault_internal (f : FaultRecord) (s : State) : (s.recordFault f).internal = s.internal := rfl
@[simp] theorem State.recordFault_external (f : FaultRecord) (s : State) : (s.recordFault f).external = s.external := rfl
@[simp] theorem State.recordFault_div (f : FaultRecord) (s : State) : (s.recordFault f).div = s.div := rfl
@[simp] theorem State.recordFault_tima (f : FaultRecord) (s : State) : (s.recordFault f).tima = s.tima := rfl
@[simp] theorem State.recordFault_tma (f : FaultRecord) (s : State) : (s.recordFault f).tma = s.tma := rfl
@[simp] theorem State.recordFault_tmc (f : FaultRecord) (s : State) : (s.recordFault f).tmc = s.tmc := rfl
@[simp] theorem State.recordFault_dividerCounter (f : FaultRecord) (s : State) : (s.recordFault f).dividerCounter = s.dividerCounter := rfl
@[simp] theorem State.recordFault_timerCounter (f : FaultRecord) (s : State) : (s.recordFault f).timerCounter = s.timerCounter := rfl
@[simp] theorem State.recordFault_phase (f : FaultRecord) (s : State) : (s.recordFault f).phase = s.phase := rfl
@[simp] theorem State.recordFault_fault (f : FaultRecord) (s : State) : (s.recordFault f).fault = some f := rfl
@[simp] theorem State.recordFault_inbox (f : FaultRecord) (s : State) : (s.recordFault f).inbox = s.inbox := rfl
@[simp] theorem State.recordFault_response (f : FaultRecord) (s : State) : (s.recordFault f).response = some (.fault f) := rfl
@[simp] theorem State.recordFault_refusals (f : FaultRecord) (s : State) : (s.recordFault f).refusals = s.refusals := rfl

/-! ## setInt -/

@[simp] theorem State.setInt_cartBytes (a : Nat) (v : Byte) (s : State) : (s.setInt a v).cartBytes = s.cartBytes := rfl
@[simp] theorem State.setInt_cartBankMode (a : Nat) (v : Byte) (s : State) : (s.setInt a v).cartBankMode = s.cartBankMode := rfl
@[simp] theorem State.setInt_cartRamBankCount (a : Nat) (v : Byte) (s : State) : (s.setInt a v).cartRamBankCount = s.cartRamBankCount := rfl
@[simp] theorem State.setInt_romBankingModeActive (a : Nat) (v : Byte) (s : State) : (s.setInt a v).romBankingModeActive = s.romBankingModeActive := rfl
@[simp] theorem State.setInt_currentROMBank (a : Nat) (v : Byte) (s : State) : (s.setInt a v).currentROMBank = s.currentROMBank := rfl
@[simp] theorem State.setInt_ramBankingEnabled (a : Nat) (v : Byte) (s : State) : (s.setInt a v).ramBankingEnabled = s.ramBankingEnabled := rfl
@[simp] theorem State.setInt_currentRAMBank (a : Nat) (v : Byte) (s : State) : (s.setInt a v).currentRAMBank = s.currentRAMBank := rfl
@[simp] theorem State.setInt_internal (a : Nat) (v : Byte) (s : State) : (s.setInt a v).internal = Memory.write intDefault a v s.internal := rfl
@[simp] theorem State.setInt_external (a : Nat) (v : Byte) (s : State) : (s.setInt a v).external = s.external := rfl
@[simp] theorem State.setInt_div (a : Nat) (v : Byte) (s : State) : (s.setInt a v).div = s.div := rfl
@[simp] theorem State.setInt_tima (a : Nat) (v : Byte) (s : State) : (s.setInt a v).tima = s.tima := rfl
@[simp] theorem State.setInt_tma (a : Nat) (v : Byte) (s : State) : (s.setInt a v).tma = s.tma := rfl
@[simp] theorem State.setInt_tmc (a : Nat) (v : Byte) (s : State) : (s.setInt a v).tmc = s.tmc := rfl
@[simp] theorem State.setInt_dividerCounter (a : Nat) (v : Byte) (s : State) : (s.setInt a v).dividerCounter = s.dividerCounter := rfl
@[simp] theorem State.setInt_timerCounter (a : Nat) (v : Byte) (s : State) : (s.setInt a v).timerCounter = s.timerCounter := rfl
@[simp] theorem State.setInt_phase (a : Nat) (v : Byte) (s : State) : (s.setInt a v).phase = s.phase := rfl
@[simp] theorem State.setInt_fault (a : Nat) (v : Byte) (s : State) : (s.setInt a v).fault = s.fault := rfl
@[simp] theorem State.setInt_inbox (a : Nat) (v : Byte) (s : State) : (s.setInt a v).inbox = s.inbox := rfl
@[simp] theorem State.setInt_response (a : Nat) (v : Byte) (s : State) : (s.setInt a v).response = s.response := rfl
@[simp] theorem State.setInt_refusals (a : Nat) (v : Byte) (s : State) : (s.setInt a v).refusals = s.refusals := rfl

/-! ## setExt -/

@[simp] theorem State.setExt_cartBytes (a : Nat) (v : Byte) (s : State) : (s.setExt a v).cartBytes = s.cartBytes := rfl
@[simp] theorem State.setExt_cartBankMode (a : Nat) (v : Byte) (s : State) : (s.setExt a v).cartBankMode = s.cartBankMode := rfl
@[simp] theorem State.setExt_cartRamBankCount (a : Nat) (v : Byte) (s : State) : (s.setExt a v).cartRamBankCount = s.cartRamBankCount := rfl
@[simp] theorem State.setExt_romBankingModeActive (a : Nat) (v : Byte) (s : State) : (s.setExt a v).romBankingModeActive = s.romBankingModeActive := rfl
@[simp] theorem State.setExt_currentROMBank (a : Nat) (v : Byte) (s : State) : (s.setExt a v).currentROMBank = s.currentROMBank := rfl
@[simp] theorem State.setExt_ramBankingEnabled (a : Nat) (v : Byte) (s : State) : (s.setExt a v).ramBankingEnabled = s.ramBankingEnabled := rfl
@[simp] theorem State.setExt_currentRAMBank (a : Nat) (v : Byte) (s : State) : (s.setExt a v).currentRAMBank = s.currentRAMBank := rfl
@[simp] theorem State.setExt_internal (a : Nat) (v : Byte) (s : State) : (s.setExt a v).internal = s.internal := rfl
@[simp] theorem State.setExt_external (a : Nat) (v : Byte) (s : State) : (s.setExt a v).external = Memory.write extDefault a v s.external := rfl
@[simp] theorem State.setExt_div (a : Nat) (v : Byte) (s : State) : (s.setExt a v).div = s.div := rfl
@[simp] theorem State.setExt_tima (a : Nat) (v : Byte) (s : State) : (s.setExt a v).tima = s.tima := rfl
@[simp] theorem State.setExt_tma (a : Nat) (v : Byte) (s : State) : (s.setExt a v).tma = s.tma := rfl
@[simp] theorem State.setExt_tmc (a : Nat) (v : Byte) (s : State) : (s.setExt a v).tmc = s.tmc := rfl
@[simp] theorem State.setExt_dividerCounter (a : Nat) (v : Byte) (s : State) : (s.setExt a v).dividerCounter = s.dividerCounter := rfl
@[simp] theorem State.setExt_timerCounter (a : Nat) (v : Byte) (s : State) : (s.setExt a v).timerCounter = s.timerCounter := rfl
@[simp] theorem State.setExt_phase (a : Nat) (v : Byte) (s : State) : (s.setExt a v).phase = s.phase := rfl
@[simp] theorem State.setExt_fault (a : Nat) (v : Byte) (s : State) : (s.setExt a v).fault = s.fault := rfl
@[simp] theorem State.setExt_inbox (a : Nat) (v : Byte) (s : State) : (s.setExt a v).inbox = s.inbox := rfl
@[simp] theorem State.setExt_response (a : Nat) (v : Byte) (s : State) : (s.setExt a v).response = s.response := rfl
@[simp] theorem State.setExt_refusals (a : Nat) (v : Byte) (s : State) : (s.setExt a v).refusals = s.refusals := rfl

/-! ## withRequest -/

@[simp] theorem State.withRequest_cartBytes (r : Request) (s : State) : (s.withRequest r).cartBytes = s.cartBytes := rfl
@[simp] theorem State.withRequest_cartBankMode (r : Request) (s : State) : (s.withRequest r).cartBankMode = s.cartBankMode := rfl
@[simp] theorem State.withRequest_cartRamBankCount (r : Request) (s : State) : (s.withRequest r).cartRamBankCount = s.cartRamBankCount := rfl
@[simp] theorem State.withRequest_romBankingModeActive (r : Request) (s : State) : (s.withRequest r).romBankingModeActive = s.romBankingModeActive := rfl
@[simp] theorem State.withRequest_currentROMBank (r : Request) (s : State) : (s.withRequest r).currentROMBank = s.currentROMBank := rfl
@[simp] theorem State.withRequest_ramBankingEnabled (r : Request) (s : State) : (s.withRequest r).ramBankingEnabled = s.ramBankingEnabled := rfl
@[simp] theorem State.withRequest_currentRAMBank (r : Request) (s : State) : (s.withRequest r).currentRAMBank = s.currentRAMBank := rfl
@[simp] theorem State.withRequest_internal (r : Request) (s : State) : (s.withRequest r).internal = s.internal := rfl
@[simp] theorem State.withRequest_external (r : Request) (s : State) : (s.withRequest r).external = s.external := rfl
@[simp] theorem State.withRequest_div (r : Request) (s : State) : (s.withRequest r).div = s.div := rfl
@[simp] theorem State.withRequest_tima (r : Request) (s : State) : (s.withRequest r).tima = s.tima := rfl
@[simp] theorem State.withRequest_tma (r : Request) (s : State) : (s.withRequest r).tma = s.tma := rfl
@[simp] theorem State.withRequest_tmc (r : Request) (s : State) : (s.withRequest r).tmc = s.tmc := rfl
@[simp] theorem State.withRequest_dividerCounter (r : Request) (s : State) : (s.withRequest r).dividerCounter = s.dividerCounter := rfl
@[simp] theorem State.withRequest_timerCounter (r : Request) (s : State) : (s.withRequest r).timerCounter = s.timerCounter := rfl
@[simp] theorem State.withRequest_phase (r : Request) (s : State) : (s.withRequest r).phase = s.phase := rfl
@[simp] theorem State.withRequest_fault (r : Request) (s : State) : (s.withRequest r).fault = s.fault := rfl
@[simp] theorem State.withRequest_inbox (r : Request) (s : State) : (s.withRequest r).inbox = r :: s.inbox := rfl
@[simp] theorem State.withRequest_response (r : Request) (s : State) : (s.withRequest r).response = s.response := rfl
@[simp] theorem State.withRequest_refusals (r : Request) (s : State) : (s.withRequest r).refusals = s.refusals := rfl

/-! ## The updates with cases: the fields they never write -/

@[simp] theorem ramEnable_cartBytes (d : Byte) (s : State) : (ramEnable d s).cartBytes = s.cartBytes := by unfold ramEnable; split <;> [rfl; (split <;> rfl)]
@[simp] theorem ramEnable_cartBankMode (d : Byte) (s : State) : (ramEnable d s).cartBankMode = s.cartBankMode := by unfold ramEnable; split <;> [rfl; (split <;> rfl)]
@[simp] theorem ramEnable_cartRamBankCount (d : Byte) (s : State) : (ramEnable d s).cartRamBankCount = s.cartRamBankCount := by unfold ramEnable; split <;> [rfl; (split <;> rfl)]
@[simp] theorem ramEnable_romBankingModeActive (d : Byte) (s : State) : (ramEnable d s).romBankingModeActive = s.romBankingModeActive := by unfold ramEnable; split <;> [rfl; (split <;> rfl)]
@[simp] theorem ramEnable_currentROMBank (d : Byte) (s : State) : (ramEnable d s).currentROMBank = s.currentROMBank := by unfold ramEnable; split <;> [rfl; (split <;> rfl)]
@[simp] theorem ramEnable_currentRAMBank (d : Byte) (s : State) : (ramEnable d s).currentRAMBank = s.currentRAMBank := by unfold ramEnable; split <;> [rfl; (split <;> rfl)]
@[simp] theorem ramEnable_internal (d : Byte) (s : State) : (ramEnable d s).internal = s.internal := by unfold ramEnable; split <;> [rfl; (split <;> rfl)]
@[simp] theorem ramEnable_external (d : Byte) (s : State) : (ramEnable d s).external = s.external := by unfold ramEnable; split <;> [rfl; (split <;> rfl)]
@[simp] theorem ramEnable_div (d : Byte) (s : State) : (ramEnable d s).div = s.div := by unfold ramEnable; split <;> [rfl; (split <;> rfl)]
@[simp] theorem ramEnable_tima (d : Byte) (s : State) : (ramEnable d s).tima = s.tima := by unfold ramEnable; split <;> [rfl; (split <;> rfl)]
@[simp] theorem ramEnable_tma (d : Byte) (s : State) : (ramEnable d s).tma = s.tma := by unfold ramEnable; split <;> [rfl; (split <;> rfl)]
@[simp] theorem ramEnable_tmc (d : Byte) (s : State) : (ramEnable d s).tmc = s.tmc := by unfold ramEnable; split <;> [rfl; (split <;> rfl)]
@[simp] theorem ramEnable_dividerCounter (d : Byte) (s : State) : (ramEnable d s).dividerCounter = s.dividerCounter := by unfold ramEnable; split <;> [rfl; (split <;> rfl)]
@[simp] theorem ramEnable_timerCounter (d : Byte) (s : State) : (ramEnable d s).timerCounter = s.timerCounter := by unfold ramEnable; split <;> [rfl; (split <;> rfl)]
@[simp] theorem ramEnable_phase (d : Byte) (s : State) : (ramEnable d s).phase = s.phase := by unfold ramEnable; split <;> [rfl; (split <;> rfl)]
@[simp] theorem ramEnable_fault (d : Byte) (s : State) : (ramEnable d s).fault = s.fault := by unfold ramEnable; split <;> [rfl; (split <;> rfl)]
@[simp] theorem ramEnable_inbox (d : Byte) (s : State) : (ramEnable d s).inbox = s.inbox := by unfold ramEnable; split <;> [rfl; (split <;> rfl)]
@[simp] theorem ramEnable_response (d : Byte) (s : State) : (ramEnable d s).response = s.response := by unfold ramEnable; split <;> [rfl; (split <;> rfl)]
@[simp] theorem ramEnable_refusals (d : Byte) (s : State) : (ramEnable d s).refusals = s.refusals := by unfold ramEnable; split <;> [rfl; (split <;> rfl)]

@[simp] theorem dividerStep_cartBytes (n : Nat) (s : State) : (dividerStep n s).cartBytes = s.cartBytes := by unfold dividerStep; split <;> rfl
@[simp] theorem dividerStep_cartBankMode (n : Nat) (s : State) : (dividerStep n s).cartBankMode = s.cartBankMode := by unfold dividerStep; split <;> rfl
@[simp] theorem dividerStep_cartRamBankCount (n : Nat) (s : State) : (dividerStep n s).cartRamBankCount = s.cartRamBankCount := by unfold dividerStep; split <;> rfl
@[simp] theorem dividerStep_romBankingModeActive (n : Nat) (s : State) : (dividerStep n s).romBankingModeActive = s.romBankingModeActive := by unfold dividerStep; split <;> rfl
@[simp] theorem dividerStep_currentROMBank (n : Nat) (s : State) : (dividerStep n s).currentROMBank = s.currentROMBank := by unfold dividerStep; split <;> rfl
@[simp] theorem dividerStep_ramBankingEnabled (n : Nat) (s : State) : (dividerStep n s).ramBankingEnabled = s.ramBankingEnabled := by unfold dividerStep; split <;> rfl
@[simp] theorem dividerStep_currentRAMBank (n : Nat) (s : State) : (dividerStep n s).currentRAMBank = s.currentRAMBank := by unfold dividerStep; split <;> rfl
@[simp] theorem dividerStep_internal (n : Nat) (s : State) : (dividerStep n s).internal = s.internal := by unfold dividerStep; split <;> rfl
@[simp] theorem dividerStep_external (n : Nat) (s : State) : (dividerStep n s).external = s.external := by unfold dividerStep; split <;> rfl
@[simp] theorem dividerStep_tima (n : Nat) (s : State) : (dividerStep n s).tima = s.tima := by unfold dividerStep; split <;> rfl
@[simp] theorem dividerStep_tma (n : Nat) (s : State) : (dividerStep n s).tma = s.tma := by unfold dividerStep; split <;> rfl
@[simp] theorem dividerStep_tmc (n : Nat) (s : State) : (dividerStep n s).tmc = s.tmc := by unfold dividerStep; split <;> rfl
@[simp] theorem dividerStep_timerCounter (n : Nat) (s : State) : (dividerStep n s).timerCounter = s.timerCounter := by unfold dividerStep; split <;> rfl
@[simp] theorem dividerStep_phase (n : Nat) (s : State) : (dividerStep n s).phase = s.phase := by unfold dividerStep; split <;> rfl
@[simp] theorem dividerStep_fault (n : Nat) (s : State) : (dividerStep n s).fault = s.fault := by unfold dividerStep; split <;> rfl
@[simp] theorem dividerStep_inbox (n : Nat) (s : State) : (dividerStep n s).inbox = s.inbox := by unfold dividerStep; split <;> rfl
@[simp] theorem dividerStep_response (n : Nat) (s : State) : (dividerStep n s).response = s.response := by unfold dividerStep; split <;> rfl
@[simp] theorem dividerStep_refusals (n : Nat) (s : State) : (dividerStep n s).refusals = s.refusals := by unfold dividerStep; split <;> rfl

@[simp] theorem timerStep_cartBytes (n : Nat) (s : State) : ((timerStep n s).1).cartBytes = s.cartBytes := by unfold timerStep; split <;> [(split <;> rfl); rfl]
@[simp] theorem timerStep_cartBankMode (n : Nat) (s : State) : ((timerStep n s).1).cartBankMode = s.cartBankMode := by unfold timerStep; split <;> [(split <;> rfl); rfl]
@[simp] theorem timerStep_cartRamBankCount (n : Nat) (s : State) : ((timerStep n s).1).cartRamBankCount = s.cartRamBankCount := by unfold timerStep; split <;> [(split <;> rfl); rfl]
@[simp] theorem timerStep_romBankingModeActive (n : Nat) (s : State) : ((timerStep n s).1).romBankingModeActive = s.romBankingModeActive := by unfold timerStep; split <;> [(split <;> rfl); rfl]
@[simp] theorem timerStep_currentROMBank (n : Nat) (s : State) : ((timerStep n s).1).currentROMBank = s.currentROMBank := by unfold timerStep; split <;> [(split <;> rfl); rfl]
@[simp] theorem timerStep_ramBankingEnabled (n : Nat) (s : State) : ((timerStep n s).1).ramBankingEnabled = s.ramBankingEnabled := by unfold timerStep; split <;> [(split <;> rfl); rfl]
@[simp] theorem timerStep_currentRAMBank (n : Nat) (s : State) : ((timerStep n s).1).currentRAMBank = s.currentRAMBank := by unfold timerStep; split <;> [(split <;> rfl); rfl]
@[simp] theorem timerStep_internal (n : Nat) (s : State) : ((timerStep n s).1).internal = s.internal := by unfold timerStep; split <;> [(split <;> rfl); rfl]
@[simp] theorem timerStep_external (n : Nat) (s : State) : ((timerStep n s).1).external = s.external := by unfold timerStep; split <;> [(split <;> rfl); rfl]
@[simp] theorem timerStep_div (n : Nat) (s : State) : ((timerStep n s).1).div = s.div := by unfold timerStep; split <;> [(split <;> rfl); rfl]
@[simp] theorem timerStep_tma (n : Nat) (s : State) : ((timerStep n s).1).tma = s.tma := by unfold timerStep; split <;> [(split <;> rfl); rfl]
@[simp] theorem timerStep_tmc (n : Nat) (s : State) : ((timerStep n s).1).tmc = s.tmc := by unfold timerStep; split <;> [(split <;> rfl); rfl]
@[simp] theorem timerStep_dividerCounter (n : Nat) (s : State) : ((timerStep n s).1).dividerCounter = s.dividerCounter := by unfold timerStep; split <;> [(split <;> rfl); rfl]
@[simp] theorem timerStep_phase (n : Nat) (s : State) : ((timerStep n s).1).phase = s.phase := by unfold timerStep; split <;> [(split <;> rfl); rfl]
@[simp] theorem timerStep_fault (n : Nat) (s : State) : ((timerStep n s).1).fault = s.fault := by unfold timerStep; split <;> [(split <;> rfl); rfl]
@[simp] theorem timerStep_inbox (n : Nat) (s : State) : ((timerStep n s).1).inbox = s.inbox := by unfold timerStep; split <;> [(split <;> rfl); rfl]
@[simp] theorem timerStep_response (n : Nat) (s : State) : ((timerStep n s).1).response = s.response := by unfold timerStep; split <;> [(split <;> rfl); rfl]
@[simp] theorem timerStep_refusals (n : Nat) (s : State) : ((timerStep n s).1).refusals = s.refusals := by unfold timerStep; split <;> [(split <;> rfl); rfl]

@[simp] theorem tickStep_cartBytes (n : Nat) (s : State) : ((tickStep n s).1).cartBytes = s.cartBytes := by unfold tickStep; dsimp only; split <;> simp
@[simp] theorem tickStep_cartBankMode (n : Nat) (s : State) : ((tickStep n s).1).cartBankMode = s.cartBankMode := by unfold tickStep; dsimp only; split <;> simp
@[simp] theorem tickStep_cartRamBankCount (n : Nat) (s : State) : ((tickStep n s).1).cartRamBankCount = s.cartRamBankCount := by unfold tickStep; dsimp only; split <;> simp
@[simp] theorem tickStep_romBankingModeActive (n : Nat) (s : State) : ((tickStep n s).1).romBankingModeActive = s.romBankingModeActive := by unfold tickStep; dsimp only; split <;> simp
@[simp] theorem tickStep_currentROMBank (n : Nat) (s : State) : ((tickStep n s).1).currentROMBank = s.currentROMBank := by unfold tickStep; dsimp only; split <;> simp
@[simp] theorem tickStep_ramBankingEnabled (n : Nat) (s : State) : ((tickStep n s).1).ramBankingEnabled = s.ramBankingEnabled := by unfold tickStep; dsimp only; split <;> simp
@[simp] theorem tickStep_currentRAMBank (n : Nat) (s : State) : ((tickStep n s).1).currentRAMBank = s.currentRAMBank := by unfold tickStep; dsimp only; split <;> simp
@[simp] theorem tickStep_internal (n : Nat) (s : State) : ((tickStep n s).1).internal = s.internal := by unfold tickStep; dsimp only; split <;> simp
@[simp] theorem tickStep_external (n : Nat) (s : State) : ((tickStep n s).1).external = s.external := by unfold tickStep; dsimp only; split <;> simp
@[simp] theorem tickStep_tma (n : Nat) (s : State) : ((tickStep n s).1).tma = s.tma := by unfold tickStep; dsimp only; split <;> simp
@[simp] theorem tickStep_tmc (n : Nat) (s : State) : ((tickStep n s).1).tmc = s.tmc := by unfold tickStep; dsimp only; split <;> simp
@[simp] theorem tickStep_phase (n : Nat) (s : State) : ((tickStep n s).1).phase = s.phase := by unfold tickStep; dsimp only; split <;> simp
@[simp] theorem tickStep_fault (n : Nat) (s : State) : ((tickStep n s).1).fault = s.fault := by unfold tickStep; dsimp only; split <;> simp
@[simp] theorem tickStep_inbox (n : Nat) (s : State) : ((tickStep n s).1).inbox = s.inbox := by unfold tickStep; dsimp only; split <;> simp
@[simp] theorem tickStep_response (n : Nat) (s : State) : ((tickStep n s).1).response = s.response := by unfold tickStep; dsimp only; split <;> simp
@[simp] theorem tickStep_refusals (n : Nat) (s : State) : ((tickStep n s).1).refusals = s.refusals := by unfold tickStep; dsimp only; split <;> simp

/-! ## What the storages read after an update that leaves them alone -/

@[simp] theorem State.answer_cartByte (r : Response) (s : State) (x : Nat) : (s.answer r).cartByte x = s.cartByte x := rfl
@[simp] theorem State.answer_intByte (r : Response) (s : State) (x : Nat) : (s.answer r).intByte x = s.intByte x := rfl
@[simp] theorem State.answer_extByte (r : Response) (s : State) (x : Nat) : (s.answer r).extByte x = s.extByte x := rfl
@[simp] theorem State.recordRefusal_cartByte (w : RefuseReason) (s : State) (x : Nat) : (s.recordRefusal w).cartByte x = s.cartByte x := rfl
@[simp] theorem State.recordRefusal_intByte (w : RefuseReason) (s : State) (x : Nat) : (s.recordRefusal w).intByte x = s.intByte x := rfl
@[simp] theorem State.recordRefusal_extByte (w : RefuseReason) (s : State) (x : Nat) : (s.recordRefusal w).extByte x = s.extByte x := rfl
@[simp] theorem State.recordFault_cartByte (f : FaultRecord) (s : State) (x : Nat) : (s.recordFault f).cartByte x = s.cartByte x := rfl
@[simp] theorem State.recordFault_intByte (f : FaultRecord) (s : State) (x : Nat) : (s.recordFault f).intByte x = s.intByte x := rfl
@[simp] theorem State.recordFault_extByte (f : FaultRecord) (s : State) (x : Nat) : (s.recordFault f).extByte x = s.extByte x := rfl
@[simp] theorem State.setInt_cartByte (a : Nat) (v : Byte) (s : State) (x : Nat) : (s.setInt a v).cartByte x = s.cartByte x := rfl
@[simp] theorem State.setInt_extByte (a : Nat) (v : Byte) (s : State) (x : Nat) : (s.setInt a v).extByte x = s.extByte x := rfl
@[simp] theorem State.setExt_cartByte (a : Nat) (v : Byte) (s : State) (x : Nat) : (s.setExt a v).cartByte x = s.cartByte x := rfl
@[simp] theorem State.setExt_intByte (a : Nat) (v : Byte) (s : State) (x : Nat) : (s.setExt a v).intByte x = s.intByte x := rfl
@[simp] theorem State.withRequest_cartByte (r : Request) (s : State) (x : Nat) : (s.withRequest r).cartByte x = s.cartByte x := rfl
@[simp] theorem State.withRequest_intByte (r : Request) (s : State) (x : Nat) : (s.withRequest r).intByte x = s.intByte x := rfl
@[simp] theorem State.withRequest_extByte (r : Request) (s : State) (x : Nat) : (s.withRequest r).extByte x = s.extByte x := rfl

/-! ## withRequests -/

@[simp] theorem State.withRequests_nil (s : State) : s.withRequests [] = s := rfl
@[simp] theorem State.withRequests_cons (r : Request) (rs : List Request) (s : State) :
    s.withRequests (r :: rs) = (s.withRequests rs).withRequest r := rfl
@[simp] theorem State.withRequests_cartBytes (rs : List Request) (s : State) : (s.withRequests rs).cartBytes = s.cartBytes := rfl
@[simp] theorem State.withRequests_cartBankMode (rs : List Request) (s : State) : (s.withRequests rs).cartBankMode = s.cartBankMode := rfl
@[simp] theorem State.withRequests_cartRamBankCount (rs : List Request) (s : State) : (s.withRequests rs).cartRamBankCount = s.cartRamBankCount := rfl
@[simp] theorem State.withRequests_romBankingModeActive (rs : List Request) (s : State) : (s.withRequests rs).romBankingModeActive = s.romBankingModeActive := rfl
@[simp] theorem State.withRequests_currentROMBank (rs : List Request) (s : State) : (s.withRequests rs).currentROMBank = s.currentROMBank := rfl
@[simp] theorem State.withRequests_ramBankingEnabled (rs : List Request) (s : State) : (s.withRequests rs).ramBankingEnabled = s.ramBankingEnabled := rfl
@[simp] theorem State.withRequests_currentRAMBank (rs : List Request) (s : State) : (s.withRequests rs).currentRAMBank = s.currentRAMBank := rfl
@[simp] theorem State.withRequests_internal (rs : List Request) (s : State) : (s.withRequests rs).internal = s.internal := rfl
@[simp] theorem State.withRequests_external (rs : List Request) (s : State) : (s.withRequests rs).external = s.external := rfl
@[simp] theorem State.withRequests_div (rs : List Request) (s : State) : (s.withRequests rs).div = s.div := rfl
@[simp] theorem State.withRequests_tima (rs : List Request) (s : State) : (s.withRequests rs).tima = s.tima := rfl
@[simp] theorem State.withRequests_tma (rs : List Request) (s : State) : (s.withRequests rs).tma = s.tma := rfl
@[simp] theorem State.withRequests_tmc (rs : List Request) (s : State) : (s.withRequests rs).tmc = s.tmc := rfl
@[simp] theorem State.withRequests_dividerCounter (rs : List Request) (s : State) : (s.withRequests rs).dividerCounter = s.dividerCounter := rfl
@[simp] theorem State.withRequests_timerCounter (rs : List Request) (s : State) : (s.withRequests rs).timerCounter = s.timerCounter := rfl
@[simp] theorem State.withRequests_phase (rs : List Request) (s : State) : (s.withRequests rs).phase = s.phase := rfl
@[simp] theorem State.withRequests_fault (rs : List Request) (s : State) : (s.withRequests rs).fault = s.fault := rfl
@[simp] theorem State.withRequests_inbox (rs : List Request) (s : State) : (s.withRequests rs).inbox = rs ++ s.inbox := rfl
@[simp] theorem State.withRequests_response (rs : List Request) (s : State) : (s.withRequests rs).response = s.response := rfl
@[simp] theorem State.withRequests_refusals (rs : List Request) (s : State) : (s.withRequests rs).refusals = s.refusals := rfl
@[simp] theorem State.withRequests_cartByte (rs : List Request) (s : State) (x : Nat) : (s.withRequests rs).cartByte x = s.cartByte x := rfl
@[simp] theorem State.withRequests_intByte (rs : List Request) (s : State) (x : Nat) : (s.withRequests rs).intByte x = s.intByte x := rfl
@[simp] theorem State.withRequests_extByte (rs : List Request) (s : State) (x : Nat) : (s.withRequests rs).extByte x = s.extByte x := rfl

end Sys2Proof.Machine
end

