-- ==== Sys2Proof/Laws/Memory.lean ====
section
/-! SUPPORT. Memory: a read after a write, the canonical form kept by every operation, writing the same byte twice, and what a
loaded image reads as. -/

namespace Sys2Proof.Machine

/-! ## Read after write, on any list -/

theorem Memory.get?_put (a x : Nat) (v : Byte) (m : Memory) :
    Memory.get? x (Memory.put a v m) = if x = a then some v else Memory.get? x m := by
  induction m with
  | nil => simp [Memory.put, Memory.get?]
  | cons c m ih =>
    obtain ⟨b, w⟩ := c
    simp only [Memory.put]
    split
    · simp [Memory.get?]
    · split
      · subst_vars; by_cases h : x = b <;> simp [Memory.get?, h]
      · by_cases h : x = b
        · subst h; simp [Memory.get?]; omega
        · simp [Memory.get?, h, ih]

theorem Memory.get?_erase (a x : Nat) (m : Memory) :
    Memory.get? x (Memory.erase a m) = if x = a then none else Memory.get? x m := by
  induction m with
  | nil => simp [Memory.erase, Memory.get?]
  | cons c m ih =>
    obtain ⟨b, w⟩ := c
    simp only [Memory.erase]
    split
    · subst_vars; rw [ih]; by_cases h : x = b <;> simp [Memory.get?, h]
    · by_cases h : x = b
      · subst h; simp [Memory.get?]; omega
      · simp [Memory.get?, h, ih]

/-- A read after a write, where an unlisted address reads as `d x`. -/
theorem Memory.read_write {dflt : Nat → Option Byte} (d : Nat → Byte) (h : ∀ y u, dflt y = some u → d y = u) (a x : Nat)
    (v : Byte) (m : Memory) :
    (Memory.get? x (Memory.write dflt a v m)).getD (d x) = if x = a then v else (Memory.get? x m).getD (d x) := by
  unfold Memory.write
  split
  · rename_i e
    rw [Memory.get?_erase]
    split
    · subst_vars; simp [h _ _ e]
    · rfl
  · rw [Memory.get?_put]
    split <;> rfl

@[simp] theorem State.intByte_setInt (a x : Nat) (v : Byte) (s : State) :
    (s.setInt a v).intByte x = if x = a then v else s.intByte x := by
  have h : ∀ y u, intDefault y = some u → intPowerUp y = u := by simp [intDefault]
  exact Memory.read_write intPowerUp h a x v s.internal

@[simp] theorem State.extByte_setExt (o x : Nat) (v : Byte) (s : State) :
    (s.setExt o v).extByte x = if x = o then v else s.extByte x := by
  have h : ∀ y u, extDefault y = some u → Config.extRamInit y = u := by simp [extDefault]
  exact Memory.read_write Config.extRamInit h o x v s.external

/-! ## Writing the same byte twice -/

theorem Memory.put_put (a : Nat) (v : Byte) (m : Memory) : Memory.put a v (Memory.put a v m) = Memory.put a v m := by
  induction m with
  | nil => simp [Memory.put]
  | cons c m ih =>
    obtain ⟨b, w⟩ := c
    simp only [Memory.put]
    split
    · simp [Memory.put]
    · split
      · simp [Memory.put]
      · rename_i h1 h2; simp [Memory.put, h1, h2, ih]

theorem Memory.erase_erase (a : Nat) (m : Memory) : Memory.erase a (Memory.erase a m) = Memory.erase a m := by
  induction m with
  | nil => rfl
  | cons c m ih =>
    obtain ⟨b, w⟩ := c
    simp only [Memory.erase]
    split
    · exact ih
    · rename_i h; simp [Memory.erase, h, ih]

theorem Memory.write_write (dflt : Nat → Option Byte) (a : Nat) (v : Byte) (m : Memory) :
    Memory.write dflt a v (Memory.write dflt a v m) = Memory.write dflt a v m := by
  unfold Memory.write
  split
  · exact Memory.erase_erase a m
  · exact Memory.put_put a v m

/-! ## The canonical form -/

theorem Memory.mem_put {a : Nat} {v : Byte} {m : Memory} {c : Host.Cell} (h : c ∈ Memory.put a v m) :
    c = (a, v) ∨ c ∈ m := by
  induction m with
  | nil => simpa [Memory.put] using h
  | cons b m ih =>
    obtain ⟨b, w⟩ := b
    simp only [Memory.put] at h
    split at h
    · simpa using h
    · split at h
      · rcases List.mem_cons.1 h with h | h
        · exact .inl h
        · exact .inr (List.mem_cons_of_mem _ h)
      · rcases List.mem_cons.1 h with h | h
        · exact .inr (h ▸ List.mem_cons_self)
        · rcases ih h with h | h
          · exact .inl h
          · exact .inr (List.mem_cons_of_mem _ h)

theorem Memory.mem_erase {a : Nat} {m : Memory} {c : Host.Cell} (h : c ∈ Memory.erase a m) : c ∈ m := by
  induction m with
  | nil => exact h
  | cons b m ih =>
    obtain ⟨b, w⟩ := b
    simp only [Memory.erase] at h
    split at h
    · exact List.mem_cons_of_mem _ (ih h)
    · rcases List.mem_cons.1 h with h | h
      · exact h ▸ List.mem_cons_self
      · exact List.mem_cons_of_mem _ (ih h)

theorem Memory.rising_cons {a : Nat} {v : Byte} {m : Memory} :
    Memory.rising ((a, v) :: m) = true ↔ (∀ c ∈ m, a < c.1) ∧ Memory.rising m = true := by
  simp only [Memory.rising, Bool.and_eq_true, List.all_eq_true, decide_eq_true_eq]

theorem Memory.rising_put (a : Nat) (v : Byte) {m : Memory} (h : Memory.rising m = true) :
    Memory.rising (Memory.put a v m) = true := by
  induction m with
  | nil => rfl
  | cons c m ih =>
    obtain ⟨b, w⟩ := c
    have hb := Memory.rising_cons.1 h
    simp only [Memory.put]
    split
    · rename_i hab
      refine Memory.rising_cons.2 ⟨fun c hc => ?_, h⟩
      rcases List.mem_cons.1 hc with rfl | hc
      · exact hab
      · exact Nat.lt_trans hab (hb.1 c hc)
    · split
      · rename_i e
        exact Memory.rising_cons.2 ⟨fun c hc => e ▸ hb.1 c hc, hb.2⟩
      · refine Memory.rising_cons.2 ⟨fun c hc => ?_, ih hb.2⟩
        rcases Memory.mem_put hc with rfl | hc
        · show b < a
          omega
        · exact hb.1 c hc

theorem Memory.rising_erase (a : Nat) {m : Memory} (h : Memory.rising m = true) :
    Memory.rising (Memory.erase a m) = true := by
  induction m with
  | nil => rfl
  | cons c m ih =>
    obtain ⟨b, w⟩ := c
    have hb := Memory.rising_cons.1 h
    simp only [Memory.erase]
    split
    · exact ih hb.2
    · exact Memory.rising_cons.2 ⟨fun c hc => hb.1 c (Memory.mem_erase hc), ih hb.2⟩

theorem Memory.wf_iff {ok : Nat → Bool} {dflt : Nat → Option Byte} {m : Memory} :
    Memory.wf ok dflt m = true ↔
      Memory.rising m = true ∧ ∀ c ∈ m, ok c.1 = true ∧ dflt c.1 ≠ some c.2 := by
  simp only [Memory.wf, Bool.and_eq_true, List.all_eq_true, bne_iff_ne]

@[simp] theorem Memory.wf_nil (ok : Nat → Bool) (dflt : Nat → Option Byte) : Memory.wf ok dflt [] = true := rfl

/-- A write at an address of the storage keeps the canonical form. -/
theorem Memory.wf_write {ok : Nat → Bool} {dflt : Nat → Option Byte} {a : Nat} (v : Byte) {m : Memory}
    (ha : ok a = true) (h : Memory.wf ok dflt m = true) : Memory.wf ok dflt (Memory.write dflt a v m) = true := by
  obtain ⟨hr, hc⟩ := Memory.wf_iff.1 h
  unfold Memory.write
  split
  · exact Memory.wf_iff.2 ⟨Memory.rising_erase a hr, fun c m => hc c (Memory.mem_erase m)⟩
  · refine Memory.wf_iff.2 ⟨Memory.rising_put a v hr, fun c m => ?_⟩
    rcases Memory.mem_put m with rfl | m
    · exact ⟨ha, by assumption⟩
    · exact hc c m

/-! ## A loaded image (R100) -/

theorem mem_imageCells {a : Nat} {l : List Byte} {c : Host.Cell} (h : c ∈ imageCells a l) :
    a ≤ c.1 ∧ c.1 < a + l.length ∧ c.2 ≠ 0x00 := by
  induction l generalizing a with
  | nil => simp [imageCells] at h
  | cons b l ih =>
    simp only [imageCells] at h
    split at h
    · obtain ⟨h1, h2, h3⟩ := ih h
      refine ⟨by omega, ?_, h3⟩
      simp only [List.length_cons]; omega
    · rename_i hb
      rcases List.mem_cons.1 h with rfl | h
      · exact ⟨Nat.le_refl _, by simp, hb⟩
      · obtain ⟨h1, h2, h3⟩ := ih h
        refine ⟨by omega, ?_, h3⟩
        simp only [List.length_cons]; omega

theorem rising_imageCells (a : Nat) (l : List Byte) : Memory.rising (imageCells a l) = true := by
  induction l generalizing a with
  | nil => rfl
  | cons b l ih =>
    simp only [imageCells]
    split
    · exact ih (a + 1)
    · exact Memory.rising_cons.2 ⟨fun c hc => by have := (mem_imageCells hc).1; omega, ih (a + 1)⟩

/-- A loaded image is in canonical form, within any size that holds the source. -/
theorem wf_imageCells {l : List Byte} {size : Nat} (h : l.length ≤ size) :
    Memory.wf (fun a => decide (a < size)) cartDefault (imageCells 0 l) = true := by
  refine Memory.wf_iff.2 ⟨rising_imageCells 0 l, fun c hc => ?_⟩
  obtain ⟨-, h2, h3⟩ := mem_imageCells hc
  refine ⟨by simp only [decide_eq_true_eq]; omega, ?_⟩
  simp only [cartDefault, ne_eq, Option.some.injEq]
  exact fun e => h3 e.symm

theorem get?_imageCells_below {a x : Nat} {l : List Byte} (h : x < a) : Memory.get? x (imageCells a l) = none := by
  induction l generalizing a with
  | nil => rfl
  | cons b l ih =>
    simp only [imageCells]
    split
    · exact ih (by omega)
    · simp only [Memory.get?]; rw [if_neg (by omega)]; exact ih (by omega)

/-- The image reads as the source, and 0x00 past its end. -/
theorem read_imageCells (a x : Nat) (l : List Byte) :
    (Memory.get? (a + x) (imageCells a l)).getD 0x00 = (l[x]?).getD 0x00 := by
  induction l generalizing a x with
  | nil => simp [imageCells, Memory.get?]
  | cons b l ih =>
    simp only [imageCells]
    cases x with
    | zero =>
      split
      · rename_i hb; rw [Nat.add_zero, get?_imageCells_below (by omega)]; simp [hb]
      · simp [Memory.get?]
    | succ x =>
      have e : a + (x + 1) = a + 1 + x := by omega
      split
      · rw [e, ih]; simp
      · simp only [Memory.get?]; rw [if_neg (by omega), e, ih]; simp

end Sys2Proof.Machine
end

