-- ==== Sys2Proof/Laws/Ops.lean ====
section
/-! SUPPORT. What each shared operation can do, said once: the admission checks, the answers, a cartridge read, a TICK, taking a
request, and one step. -/

namespace Sys2Proof.Machine

/-! ## Admission (R184) -/

theorem whenUnfaulted_ok {s : State} {k : Result} (h : s.fault = none) : whenUnfaulted s k = k := by
  simp [whenUnfaulted, h]

theorem whenUnfaulted_faulted {s : State} {k : Result} {f : FaultRecord} (h : s.fault = some f) :
    whenUnfaulted s k = refuse .faulted s := by
  simp [whenUnfaulted, h]

theorem whenRunning_ready {s : State} {k : Result} (h : s.Ready) : whenRunning s k = k := by
  simp [whenRunning, whenUnfaulted, h.1, h.2]

theorem whenRunning_not {s : State} {k : Result} (hf : s.fault = none) (hp : s.phase ≠ .running) :
    whenRunning s k = refuse .notRunning s := by
  simp [whenRunning, whenUnfaulted, hf, hp]

theorem whenPhase_ok {p : Phase} {s : State} {k : Result} (hf : s.fault = none) (hp : s.phase = p) :
    whenPhase p s k = k := by
  simp [whenPhase, whenUnfaulted, hf, hp]

theorem whenPhase_not {p : Phase} {s : State} {k : Result} (hf : s.fault = none) (hp : s.phase ≠ p) :
    whenPhase p s k = refuse .phase s := by
  simp [whenPhase, whenUnfaulted, hf, hp]

/-- Everything an admitted or turned-away READ, WRITE or TICK can do. -/
theorem whenRunning_cases {s t : State} {k : Result} (h : whenRunning s k = .next t) :
    (s.Ready ∧ k = .next t) ∨ (∃ f, s.fault = some f ∧ t = s.recordRefusal .faulted) ∨
      (s.fault = none ∧ s.phase ≠ .running ∧ t = s.recordRefusal .notRunning) := by
  cases hf : s.fault with
  | some f =>
    rw [whenRunning, whenUnfaulted_faulted hf] at h
    exact .inr (.inl ⟨f, rfl, by injection h with h; exact h.symm⟩)
  | none =>
    by_cases hp : s.phase = .running
    · exact .inl ⟨⟨hf, hp⟩, by rwa [whenRunning_ready ⟨hf, hp⟩] at h⟩
    · rw [whenRunning_not hf hp] at h
      exact .inr (.inr ⟨rfl, hp, by injection h with h; exact h.symm⟩)

/-- Everything an admitted or turned-away LOAD or RESET can do. -/
theorem whenPhase_cases {p : Phase} {s t : State} {k : Result} (h : whenPhase p s k = .next t) :
    (s.fault = none ∧ s.phase = p ∧ k = .next t) ∨ (∃ f, s.fault = some f ∧ t = s.recordRefusal .faulted) ∨
      (s.fault = none ∧ s.phase ≠ p ∧ t = s.recordRefusal .phase) := by
  cases hf : s.fault with
  | some f =>
    rw [whenPhase, whenUnfaulted_faulted hf] at h
    exact .inr (.inl ⟨f, rfl, by injection h with h; exact h.symm⟩)
  | none =>
    by_cases hp : s.phase = p
    · exact .inl ⟨rfl, hp, by rwa [whenPhase_ok hf hp] at h⟩
    · rw [whenPhase_not hf hp] at h
      exact .inr (.inr ⟨rfl, hp, by injection h with h; exact h.symm⟩)

/-! ## Answers -/

theorem respond_eq (r : Response) (s : State) : respond r s = .next (s.answer r) := rfl

theorem refuse_eq (w : RefuseReason) (s : State) : refuse w s = .next (s.recordRefusal w) := rfl

theorem raiseFault_eq (f : FaultRecord) (s : State) : raiseFault f s = .next (s.recordFault f) := rfl

theorem cartRead_inside {addr : Addr} {offset : Nat} {s : State} (h : offset < 0x200000) :
    cartRead addr offset s = .next (s.answer (.byte (s.cartByte offset))) := by
  simp [cartRead, h, respond]

theorem cartRead_outside {addr : Addr} {offset : Nat} {s : State} (h : 0x200000 ≤ offset) :
    cartRead addr offset s = .next (s.recordFault (.romRange addr s.currentROMBank offset)) := by
  have : ¬ offset < 0x200000 := by omega
  simp [cartRead, this, raiseFault]

/-! ## A loaded image -/

/-- `cart.bytes` after a LOAD (R100). -/
theorem State.cartByte_loadImage (src : List Byte) (s : State) (a : Nat) :
    (s.loadImage src).cartByte a = (src[a]?).getD 0x00 := by
  have := read_imageCells 0 a src
  simpa [State.loadImage, State.cartByte] using this

theorem State.cartBankMode_loadImage (src : List Byte) (s : State) :
    (s.loadImage src).cartBankMode = detectBankMode ((src[0x147]?).getD 0x00) :=
  congrArg detectBankMode (State.cartByte_loadImage src s 0x147)

theorem State.cartRamBankCount_loadImage (src : List Byte) (s : State) :
    (s.loadImage src).cartRamBankCount = (src[0x148]?).getD 0x00 :=
  State.cartByte_loadImage src s 0x148

/-! ## A TICK -/

/-- DividerStep (R163). -/
theorem dividerStep_cases (n : Nat) (s : State) :
    (255 ≤ s.dividerCounter + n ∧ dividerStep n s = { s with dividerCounter := 0, div := s.div + 1 }) ∨
      (s.dividerCounter + n < 255 ∧ dividerStep n s = { s with dividerCounter := s.dividerCounter + n }) := by
  by_cases h : (255 : Int) ≤ s.dividerCounter + n
  · exact .inl ⟨h, by simp [dividerStep, dividerExpired, h]⟩
  · exact .inr ⟨by omega, by simp [dividerStep, dividerExpired, h]⟩

/-- TimerStep (R164). -/
theorem timerStep_cases (n : Nat) (s : State) :
    (s.timerCounter ≤ n ∧ s.tima = 0xFF ∧
        timerStep n s = ({ s with timerCounter := freqTable (frequencySelect s.tmc), tima := s.tma }, true)) ∨
      (s.timerCounter ≤ n ∧ s.tima ≠ 0xFF ∧
        timerStep n s = ({ s with timerCounter := freqTable (frequencySelect s.tmc), tima := s.tima + 1 }, false)) ∨
      ((n : Int) < s.timerCounter ∧ timerStep n s = ({ s with timerCounter := s.timerCounter - n }, false)) := by
  unfold timerStep timerExpired timaFull
  by_cases h : s.timerCounter ≤ n
  · have hd : decide (s.timerCounter - (n : Int) ≤ 0) = true := by simp only [decide_eq_true_eq]; omega
    rw [if_pos hd]
    by_cases ht : s.tima = 0xFF
    · rw [if_pos (beq_iff_eq.2 ht)]; exact .inl ⟨h, ht, rfl⟩
    · rw [if_neg (fun e => ht (beq_iff_eq.1 e))]; exact .inr (.inl ⟨h, ht, rfl⟩)
  · have hd : ¬ decide (s.timerCounter - (n : Int) ≤ 0) = true := by simp only [decide_eq_true_eq]; omega
    rw [if_neg hd]
    exact .inr (.inr ⟨by omega, rfl⟩)

theorem freqTable_pos (sel : BitVec 2) : 1 ≤ freqTable sel := by
  revert sel; decide

/-! ## One step -/

theorem takeRequest_nil {s : State} (h : s.inbox = []) : takeRequest s = none := by simp [takeRequest, h]

theorem takeRequest_cons {s : State} {r : Request} {rest : List Request} (h : s.inbox = r :: rest) :
    takeRequest s = some (r, { s with inbox := rest }) := by simp [takeRequest, h]

theorem step_nil {s : State} (h : s.inbox = []) : step s = .next s := by simp [step, takeRequest_nil h]

theorem step_ok {s : State} {r : Request} {rest : List Request} {i : Instr} (h : s.inbox = r :: rest)
    (hd : decodeRequest s.cartBankMode r = .ok i) : step s = exec i { s with inbox := rest } := by
  simp [step, takeRequest_cons h, hd]

theorem step_error {s : State} {r : Request} {rest : List Request} {e : DecodeError} (h : s.inbox = r :: rest)
    (hd : decodeRequest s.cartBankMode r = .error e) : step s = rejectRequest r e { s with inbox := rest } := by
  simp [step, takeRequest_cons h, hd]

/-- The request put first at the port is the one served, and the port is then as it was. -/
theorem step_withRequest {s : State} {r : Request} {i : Instr} (hd : decodeRequest s.cartBankMode r = .ok i) :
    step (s.withRequest r) = exec i s := step_ok (s := s.withRequest r) rfl hd

/-- A run of one step more, of any machine, is that step and the run from where it leads. -/
theorem run_succ_of_step {M : Host.Core} {k : Nat} {s t : M.State} (h : M.step s = .next t) :
    M.run (k + 1) s = M.run k t := by
  simp only [Host.Core.run, h]

theorem run_succ {k : Nat} {s t : State} (h : step s = .next t) : core.run (k + 1) s = core.run k t :=
  run_succ_of_step (M := core) h

/-- Everything a step can be: nothing to serve, an instruction run, or a request rejected. -/
theorem step_cases (s : State) :
    (s.inbox = [] ∧ step s = .next s) ∨
      (∃ r rest i, s.inbox = r :: rest ∧ decodeRequest s.cartBankMode r = .ok i ∧
        step s = exec i { s with inbox := rest }) ∨
      (∃ r rest e, s.inbox = r :: rest ∧ decodeRequest s.cartBankMode r = .error e ∧
        step s = rejectRequest r e { s with inbox := rest }) := by
  cases h : s.inbox with
  | nil => exact .inl ⟨rfl, step_nil h⟩
  | cons r rest =>
    cases hd : decodeRequest s.cartBankMode r with
    | ok i => exact .inr (.inl ⟨r, rest, i, rfl, hd, step_ok h hd⟩)
    | error e => exact .inr (.inr ⟨r, rest, e, rfl, hd, step_error h hd⟩)

end Sys2Proof.Machine
end

