-- ==== Sys2Proof/Laws/PerInstr.lean ====
section
/-! SUPPORT. Statements for all instructions, one lemma per constructor.  EncodeInRow: the words of a well-formed instruction
lie in its own row of the opcode map (R86), whatever the mode field of a row of any mode. -/

namespace Sys2Proof.Laws.EncodeInRow

/-- The instruction's row number in R86. -/
def rowNumber : Instr → Nat
  | .rdTimer _ => 1
  | .rdInternalHigh _ => 2
  | .rdInternalFe80 _ => 3
  | .rdInternalFe00 _ => 4
  | .rdUnusable _ => 5
  | .rdRom0 _ => 6
  | .rdRomx _ => 7
  | .rdExtram _ => 8
  | .rdInternal _ => 9
  | .wrDiv _ => 10
  | .wrTima _ => 11
  | .wrTma _ => 12
  | .wrTmc _ => 13
  | .wrInternalHigh _ _ => 14
  | .wrInternalFe80 _ _ => 15
  | .wrInternalFe00 _ _ => 16
  | .wrUnusable _ _ => 17
  | .wrEcho _ _ => 18
  | .wrExtram _ _ => 19
  | .wrMbc1Ramen _ _ => 20
  | .wrMbc1Romlo _ _ => 21
  | .wrMbc1Hi _ _ => 22
  | .wrMbc1Mode _ _ => 23
  | .wrMbc2Ramen _ _ => 24
  | .wrMbc2RamenIgn _ _ => 25
  | .wrMbc2Romlo _ _ => 26
  | .wrMbc2Nop _ _ => 27
  | .wrNoneNop _ _ => 28
  | .wrInternal _ _ => 29
  | .load _ => 30
  | .reset => 31
  | .tick _ => 32

/-- The frame is one of row `n` of R86: its key, or its SYS word, gives `match` under `mask`. -/
def InRow (n : Nat) : Frame → Prop
  | .bus tw => ∃ r, busRows[n - 1]? = some r ∧ tw.toNat / 0x100 &&& r.mask = r.pat
  | .sys s _ => 30 ≤ n ∧ s.toNat &&& 0x30000 = (n - 30) * 0x10000

def Statement (i : Instr) : Prop := i.wf = true → ∀ mode, InRow (rowNumber i) (encode mode i)

theorem inRow_busFrame {n : Nat} {mode : BitVec 2} {dir : Dir} {addr : Addr} {data : Byte} (r : Row)
    (hr : busRows[n - 1]? = some r) (h : busKey mode dir addr &&& r.mask = r.pat) :
    InRow n (busFrame mode dir addr data) := by
  have hk := busKey_lt mode dir addr
  have hd := data.isLt
  refine ⟨r, hr, ?_⟩
  rw [BitVec.toNat_ofNat]
  have e : (busKey mode dir addr * 0x100 + data.toNat) % 2 ^ 27 / 0x100 = busKey mode dir addr := by omega
  rw [e, h]

theorem rdTimer (addr : Addr) : Statement (.rdTimer addr) := by
  intro h mode
  refine inRow_busFrame _ rfl ((takes_1FFFC_0FF04 _).2 ?_)
  have := addr.isLt
  simp only [Instr.wf, Addr.within_iff] at h
  rw [busKey_read]
  omega

theorem rdInternalHigh (addr : Addr) : Statement (.rdInternalHigh addr) := by
  intro h mode
  refine inRow_busFrame _ rfl ((takes_1FF00_0FF00 _).2 ?_)
  have := addr.isLt
  simp only [Instr.wf, Addr.highPage, Bool.or_eq_true, Addr.within_iff] at h
  rw [busKey_read]
  omega

theorem rdInternalFe80 (addr : Addr) : Statement (.rdInternalFe80 addr) := by
  intro h mode
  refine inRow_busFrame _ rfl ((takes_1FFE0_0FE80 _).2 ?_)
  have := addr.isLt
  simp only [Instr.wf, Addr.within_iff] at h
  rw [busKey_read]
  omega

theorem rdInternalFe00 (addr : Addr) : Statement (.rdInternalFe00 addr) := by
  intro h mode
  refine inRow_busFrame _ rfl ((takes_1FF80_0FE00 _).2 ?_)
  have := addr.isLt
  simp only [Instr.wf, Addr.within_iff] at h
  rw [busKey_read]
  omega

theorem rdUnusable (addr : Addr) : Statement (.rdUnusable addr) := by
  intro h mode
  refine inRow_busFrame _ rfl ((takes_1FF00_0FE00 _).2 ?_)
  have := addr.isLt
  simp only [Instr.wf, Addr.within_iff] at h
  rw [busKey_read]
  omega

theorem rdRom0 (addr : Addr) : Statement (.rdRom0 addr) := by
  intro h mode
  refine inRow_busFrame _ rfl ((takes_1C000_00000 _).2 ?_)
  have := addr.isLt
  simp only [Instr.wf, Addr.within_iff] at h
  rw [busKey_read]
  omega

theorem rdRomx (addr : Addr) : Statement (.rdRomx addr) := by
  intro h mode
  refine inRow_busFrame _ rfl ((takes_1C000_04000 _).2 ?_)
  have := addr.isLt
  simp only [Instr.wf, Addr.within_iff] at h
  rw [busKey_read]
  omega

theorem rdExtram (addr : Addr) : Statement (.rdExtram addr) := by
  intro h mode
  refine inRow_busFrame _ rfl ((takes_1E000_0A000 _).2 ?_)
  have := addr.isLt
  simp only [Instr.wf, Addr.within_iff] at h
  rw [busKey_read]
  omega

theorem rdInternal (addr : Addr) : Statement (.rdInternal addr) := by
  intro h mode
  refine inRow_busFrame _ rfl ((takes_10000_00000 _).2 ?_)
  have := addr.isLt
  simp only [Instr.wf, Bool.or_eq_true, Addr.within_iff] at h
  rw [busKey_read]
  omega

theorem wrDiv (data : Byte) : Statement (.wrDiv data) := by
  intro _ mode
  refine inRow_busFrame _ rfl ((takes_1FFFF_1FF04 _).2 ?_)
  rw [busKey_write, show (0xFF04 : Addr).toNat = 0xFF04 from rfl]
  omega

theorem wrTima (data : Byte) : Statement (.wrTima data) := by
  intro _ mode
  refine inRow_busFrame _ rfl ((takes_1FFFF_1FF05 _).2 ?_)
  rw [busKey_write, show (0xFF05 : Addr).toNat = 0xFF05 from rfl]
  omega

theorem wrTma (data : Byte) : Statement (.wrTma data) := by
  intro _ mode
  refine inRow_busFrame _ rfl ((takes_1FFFF_1FF06 _).2 ?_)
  rw [busKey_write, show (0xFF06 : Addr).toNat = 0xFF06 from rfl]
  omega

theorem wrTmc (data : Byte) : Statement (.wrTmc data) := by
  intro _ mode
  refine inRow_busFrame _ rfl ((takes_1FFFF_1FF07 _).2 ?_)
  rw [busKey_write, show (0xFF07 : Addr).toNat = 0xFF07 from rfl]
  omega

theorem wrInternalHigh (addr : Addr) (data : Byte) : Statement (.wrInternalHigh addr data) := by
  intro h mode
  refine inRow_busFrame _ rfl ((takes_1FF00_1FF00 _).2 ?_)
  have := addr.isLt
  simp only [Instr.wf, Addr.highPage, Bool.or_eq_true, Addr.within_iff] at h
  rw [busKey_write]
  omega

theorem wrInternalFe80 (addr : Addr) (data : Byte) : Statement (.wrInternalFe80 addr data) := by
  intro h mode
  refine inRow_busFrame _ rfl ((takes_1FFE0_1FE80 _).2 ?_)
  have := addr.isLt
  simp only [Instr.wf, Addr.within_iff] at h
  rw [busKey_write]
  omega

theorem wrInternalFe00 (addr : Addr) (data : Byte) : Statement (.wrInternalFe00 addr data) := by
  intro h mode
  refine inRow_busFrame _ rfl ((takes_1FF80_1FE00 _).2 ?_)
  have := addr.isLt
  simp only [Instr.wf, Addr.within_iff] at h
  rw [busKey_write]
  omega

theorem wrUnusable (addr : Addr) (data : Byte) : Statement (.wrUnusable addr data) := by
  intro h mode
  refine inRow_busFrame _ rfl ((takes_1FF00_1FE00 _).2 ?_)
  have := addr.isLt
  simp only [Instr.wf, Addr.within_iff] at h
  rw [busKey_write]
  omega

theorem wrEcho (addr : Addr) (data : Byte) : Statement (.wrEcho addr data) := by
  intro h mode
  refine inRow_busFrame _ rfl ((takes_1E000_1E000 _).2 ?_)
  have := addr.isLt
  simp only [Instr.wf, Addr.within_iff] at h
  rw [busKey_write]
  omega

theorem wrExtram (addr : Addr) (data : Byte) : Statement (.wrExtram addr data) := by
  intro h mode
  refine inRow_busFrame _ rfl ((takes_1E000_1A000 _).2 ?_)
  have := addr.isLt
  simp only [Instr.wf, Addr.within_iff] at h
  rw [busKey_write]
  omega

theorem wrMbc1Ramen (addr : Addr) (data : Byte) : Statement (.wrMbc1Ramen addr data) := by
  intro h mode
  refine inRow_busFrame _ rfl ((takes_7E000_30000 _).2 ?_)
  have := addr.isLt
  simp only [Instr.wf, Addr.within_iff] at h
  rw [busKey_write_mbc1]
  omega

theorem wrMbc1Romlo (addr : Addr) (data : Byte) : Statement (.wrMbc1Romlo addr data) := by
  intro h mode
  refine inRow_busFrame _ rfl ((takes_7E000_32000 _).2 ?_)
  have := addr.isLt
  simp only [Instr.wf, Addr.within_iff] at h
  rw [busKey_write_mbc1]
  omega

theorem wrMbc1Hi (addr : Addr) (data : Byte) : Statement (.wrMbc1Hi addr data) := by
  intro h mode
  refine inRow_busFrame _ rfl ((takes_7E000_34000 _).2 ?_)
  have := addr.isLt
  simp only [Instr.wf, Addr.within_iff] at h
  rw [busKey_write_mbc1]
  omega

theorem wrMbc1Mode (addr : Addr) (data : Byte) : Statement (.wrMbc1Mode addr data) := by
  intro h mode
  refine inRow_busFrame _ rfl ((takes_7E000_36000 _).2 ?_)
  have := addr.isLt
  simp only [Instr.wf, Addr.within_iff] at h
  rw [busKey_write_mbc1]
  omega

theorem wrMbc2Ramen (addr : Addr) (data : Byte) : Statement (.wrMbc2Ramen addr data) := by
  intro h mode
  refine inRow_busFrame _ rfl ((takes_7E010_50000 _).2 ?_)
  have := addr.isLt
  simp only [Instr.wf, Bool.and_eq_true, addr_bit4, Bool.not_eq_true', decide_eq_false_iff_not, Addr.within_iff] at h
  rw [busKey_write_mbc2]
  omega

theorem wrMbc2RamenIgn (addr : Addr) (data : Byte) : Statement (.wrMbc2RamenIgn addr data) := by
  intro h mode
  refine inRow_busFrame _ rfl ((takes_7E010_50010 _).2 ?_)
  have := addr.isLt
  simp only [Instr.wf, Bool.and_eq_true, addr_bit4, decide_eq_true_eq, Addr.within_iff] at h
  rw [busKey_write_mbc2]
  omega

theorem wrMbc2Romlo (addr : Addr) (data : Byte) : Statement (.wrMbc2Romlo addr data) := by
  intro h mode
  refine inRow_busFrame _ rfl ((takes_7E000_52000 _).2 ?_)
  have := addr.isLt
  simp only [Instr.wf, Addr.within_iff] at h
  rw [busKey_write_mbc2]
  omega

theorem wrMbc2Nop (addr : Addr) (data : Byte) : Statement (.wrMbc2Nop addr data) := by
  intro h mode
  refine inRow_busFrame _ rfl ((takes_7C000_54000 _).2 ?_)
  have := addr.isLt
  simp only [Instr.wf, Addr.within_iff] at h
  rw [busKey_write_mbc2]
  omega

theorem wrNoneNop (addr : Addr) (data : Byte) : Statement (.wrNoneNop addr data) := by
  intro h mode
  refine inRow_busFrame _ rfl ((takes_78000_10000 _).2 ?_)
  have := addr.isLt
  simp only [Instr.wf, Addr.within_iff] at h
  rw [busKey_write_none]
  omega

theorem wrInternal (addr : Addr) (data : Byte) : Statement (.wrInternal addr data) := by
  intro h mode
  refine inRow_busFrame _ rfl ((takes_18000_18000 _).2 ?_)
  have := addr.isLt
  simp only [Instr.wf, Bool.or_eq_true, Addr.within_iff] at h
  rw [busKey_write]
  omega

theorem load (source : Option (List Byte)) : Statement (.load source) := by
  intro _ _
  refine ⟨Nat.le_add_right 30 0, ?_⟩
  rw [BitVec.toNat_ofNat, and_30000]
  simp [rowNumber]

theorem reset : Statement (.reset) := by
  intro _ _
  refine ⟨Nat.le_add_right 30 1, ?_⟩
  rw [BitVec.toNat_ofNat, and_30000]
  simp [rowNumber]

theorem tick (cycles : BitVec 16) : Statement (.tick cycles) := by
  intro _ _
  refine ⟨Nat.le_add_right 30 2, ?_⟩
  have := cycles.isLt
  rw [BitVec.toNat_ofNat, and_30000]
  show (2 * 0x10000 + cycles.toNat) % 2 ^ 18 / 65536 % 4 * 65536 = 2 * 0x10000
  omega

end Sys2Proof.Laws.EncodeInRow
end

