-- ==== Sys2Proof/Tests/Slice0.lean ====
section
/-! SUPPORT. The model's own tests: the well-formedness checks, one written-out word for each row of the opcode map, one or two
single requests for each instruction with the answer of spec/95_test_vectors.md, and for each statement with hypotheses a
state and operands that meet them. -/

namespace Sys2Proof.Machine.Tests

open Sys2Proof.Machine.Claims

/-! ## States -/

/-- A RUNNING block at its power-up values, on a cartridge of this bank mode and an empty image. -/
def running (m : BankMode) : State := { State.reset with phase := .running, cartBankMode := m }

/-- A LOADED block on an empty MBC1 image. -/
def loaded : State := { State.reset with phase := .loaded, cartBankMode := .mbc1 }

/-- RAM banking mode, RAM enabled, RAM bank `b`, on MBC1. -/
def ramBanked (b : BitVec 2) : State :=
  { running .mbc1 with romBankingModeActive := false, ramBankingEnabled := true, currentRAMBank := b }

/-- A running MBC1 block with this ROM bank. -/
def banked (b : Byte) : State := { running .mbc1 with currentROMBank := b }

/-- A running MBC1 block with this timer. -/
def timed (tmc : Byte) (counter : Int) (tima tma : Byte) : State :=
  { running .mbc1 with tmc := tmc, timerCounter := counter, tima := tima, tma := tma }

/-- A block that has taken a fault. -/
def faulted : State := { running .mbc1 with fault := some .load }

/-- The state after a request; a model's stop has none. -/
def after : Result → Option State
  | .next t => some t
  | _ => none

/-- The response to a request. -/
def answerTo (r : Result) : Option Response := (after r).bind (·.response)

/-- A WRITE of this instruction leaves this state, answered `done`. -/
abbrev Does (i : Instr) (s t : State) : Prop := after (exec i s) = some (t.answer .done)

/-! ## Well-formedness: each row refuses an address of its neighbour -/

theorem test_wf_refuses_reads :
    (Instr.rdTimer 0xFF08).wf = false ∧ (Instr.rdTimer 0xFF03).wf = false ∧ (Instr.rdInternalHigh 0xFF04).wf = false ∧
    (Instr.rdInternalHigh 0xFEFF).wf = false ∧ (Instr.rdInternalFe80 0xFEA0).wf = false ∧
    (Instr.rdInternalFe00 0xFE80).wf = false ∧ (Instr.rdUnusable 0xFF00).wf = false ∧ (Instr.rdRom0 0x4000).wf = false ∧
    (Instr.rdRomx 0x8000).wf = false ∧ (Instr.rdRomx 0x3FFF).wf = false ∧ (Instr.rdExtram 0x9FFF).wf = false ∧
    (Instr.rdInternal 0xA000).wf = false ∧ (Instr.rdInternal 0xFE00).wf = false := by decide

theorem test_wf_refuses_writes :
    (Instr.wrInternalHigh 0xFF07 0).wf = false ∧ (Instr.wrInternalFe80 0xFE7F 0).wf = false ∧
    (Instr.wrInternalFe00 0xFDFF 0).wf = false ∧ (Instr.wrUnusable 0xFE9F 0).wf = false ∧
    (Instr.wrEcho 0xFE00 0).wf = false ∧ (Instr.wrEcho 0xDFFF 0).wf = false ∧ (Instr.wrExtram 0xC000 0).wf = false ∧
    (Instr.wrInternal 0xE000 0).wf = false ∧ (Instr.wrInternal 0xBFFF 0).wf = false := by decide

theorem test_wf_refuses_commands :
    (Instr.wrMbc1Ramen 0x2000 0).wf = false ∧ (Instr.wrMbc1Romlo 0x4000 0).wf = false ∧
    (Instr.wrMbc1Hi 0x6000 0).wf = false ∧ (Instr.wrMbc1Mode 0x8000 0).wf = false ∧
    (Instr.wrMbc2Ramen 0x0010 0).wf = false ∧ (Instr.wrMbc2Ramen 0x2000 0).wf = false ∧
    (Instr.wrMbc2RamenIgn 0x0000 0).wf = false ∧ (Instr.wrMbc2RamenIgn 0x2010 0).wf = false ∧
    (Instr.wrMbc2Romlo 0x1FFF 0).wf = false ∧ (Instr.wrMbc2Nop 0x3FFF 0).wf = false ∧
    (Instr.wrNoneNop 0x8000 0).wf = false := by decide

/-! ## Decoding: a word of each row, written out as mode, direction, address, data (R81, R83) or kind, operand (R84) -/

theorem test_decode_rdTimer : decode (.bus 0b01_0_1111111100000111_00000000) = .ok (.rdTimer 0xFF07) := by rfl
theorem test_decode_rdInternalHigh : decode (.bus 0b01_0_1111111101000000_00000000) = .ok (.rdInternalHigh 0xFF40) := by rfl
theorem test_decode_rdInternalFe80 : decode (.bus 0b01_0_1111111010011111_00000000) = .ok (.rdInternalFe80 0xFE9F) := by rfl
theorem test_decode_rdInternalFe00 : decode (.bus 0b01_0_1111111001111111_00000000) = .ok (.rdInternalFe00 0xFE7F) := by rfl
theorem test_decode_rdUnusable : decode (.bus 0b01_0_1111111010100000_00000000) = .ok (.rdUnusable 0xFEA0) := by rfl
theorem test_decode_rdRom0 : decode (.bus 0b01_0_0011111111111111_00000000) = .ok (.rdRom0 0x3FFF) := by rfl
theorem test_decode_rdRomx : decode (.bus 0b10_0_0100000000000000_00000000) = .ok (.rdRomx 0x4000) := by rfl
theorem test_decode_rdExtram : decode (.bus 0b01_0_1010000100100011_00000000) = .ok (.rdExtram 0xA123) := by rfl
theorem test_decode_rdInternal : decode (.bus 0b00_0_1100000000000000_00000000) = .ok (.rdInternal 0xC000) := by rfl
theorem test_decode_wrDiv : decode (.bus 0b01_1_1111111100000100_01110111) = .ok (.wrDiv 0x77) := by rfl
theorem test_decode_wrTima : decode (.bus 0b01_1_1111111100000101_11111110) = .ok (.wrTima 0xFE) := by rfl
theorem test_decode_wrTma : decode (.bus 0b01_1_1111111100000110_11110000) = .ok (.wrTma 0xF0) := by rfl
theorem test_decode_wrTmc : decode (.bus 0b01_1_1111111100000111_00000101) = .ok (.wrTmc 0x05) := by rfl
theorem test_decode_wrInternalHigh :
    decode (.bus 0b01_1_1111111100001111_00000100) = .ok (.wrInternalHigh 0xFF0F 0x04) := by rfl
theorem test_decode_wrInternalFe80 :
    decode (.bus 0b01_1_1111111010000000_00010010) = .ok (.wrInternalFe80 0xFE80 0x12) := by rfl
theorem test_decode_wrInternalFe00 :
    decode (.bus 0b01_1_1111111000000000_00010010) = .ok (.wrInternalFe00 0xFE00 0x12) := by rfl
theorem test_decode_wrUnusable : decode (.bus 0b01_1_1111111011111111_00010010) = .ok (.wrUnusable 0xFEFF 0x12) := by rfl
theorem test_decode_wrEcho : decode (.bus 0b01_1_1111110111111111_01110111) = .ok (.wrEcho 0xFDFF 0x77) := by rfl
theorem test_decode_wrExtram : decode (.bus 0b01_1_1011111111111111_00010010) = .ok (.wrExtram 0xBFFF 0x12) := by rfl
theorem test_decode_wrMbc1Ramen : decode (.bus 0b01_1_0001111111111111_00111010) = .ok (.wrMbc1Ramen 0x1FFF 0x3A) := by rfl
theorem test_decode_wrMbc1Romlo : decode (.bus 0b01_1_0010000000000000_00000101) = .ok (.wrMbc1Romlo 0x2000 0x05) := by rfl
theorem test_decode_wrMbc1Hi : decode (.bus 0b01_1_0101111111111111_11111111) = .ok (.wrMbc1Hi 0x5FFF 0xFF) := by rfl
theorem test_decode_wrMbc1Mode : decode (.bus 0b01_1_0111111111111111_11111110) = .ok (.wrMbc1Mode 0x7FFF 0xFE) := by rfl
theorem test_decode_wrMbc2Ramen : decode (.bus 0b10_1_0001111111101111_00000000) = .ok (.wrMbc2Ramen 0x1FEF 0x00) := by rfl
theorem test_decode_wrMbc2RamenIgn :
    decode (.bus 0b10_1_0000000000010000_00001010) = .ok (.wrMbc2RamenIgn 0x0010 0x0A) := by rfl
theorem test_decode_wrMbc2Romlo : decode (.bus 0b10_1_0011111111111111_00011111) = .ok (.wrMbc2Romlo 0x3FFF 0x1F) := by rfl
theorem test_decode_wrMbc2Nop : decode (.bus 0b10_1_0100000000000000_00000011) = .ok (.wrMbc2Nop 0x4000 0x03) := by rfl
theorem test_decode_wrNoneNop : decode (.bus 0b00_1_0110000000000000_00000001) = .ok (.wrNoneNop 0x6000 0x01) := by rfl
theorem test_decode_wrInternal : decode (.bus 0b01_1_1101111111111111_00010001) = .ok (.wrInternal 0xDFFF 0x11) := by rfl
theorem test_decode_load : decode (.sys 0b00_0000000000000000 (some [0x12])) = .ok (.load (some [0x12])) := by rfl
theorem test_decode_reset : decode (.sys 0b01_0000000000000000 none) = .ok .reset := by rfl
theorem test_decode_tick : decode (.sys 0b10_1111111111111111 none) = .ok (.tick 0xFFFF) := by rfl

/-- The reserved words of R88: bank mode 0b11 with a ROM-range WRITE, SYS kind 0b11, an operand on LOAD or RESET; and bank mode
0b11 with any other request decodes as any mode. -/
theorem test_decode_reserved :
    decode (.bus 0b11_1_0000000000000000_00000000) = .error .reserved ∧
    decode (.bus 0b11_1_0111111111111111_11111111) = .error .reserved ∧
    decode (.sys 0b11_0000000000000000 none) = .error .reserved ∧
    decode (.sys 0b01_0000000000000101 none) = .error .reserved ∧
    decode (.sys 0b00_0000000000000001 none) = .error .reserved ∧
    decode (.bus 0b11_1_1000000000000000_01000010) = .ok (.wrInternal 0x8000 0x42) := by decide

/-! ## Requests that are not an instruction's (V-RS-04, V-RS-08, V-WR-12, V-WR-13, V-RD-20, V-TK-08) -/

theorem test_step_refusals :
    answerTo (step (loaded.withRequest (.sys 1 5 none))) = some (.refused .reserved) ∧
    answerTo (step ((running .mbc1).withRequest (.sys 3 0 none))) = some (.refused .reserved) ∧
    answerTo (step ((running .mbc1).withRequest (.write 0xC000 0x100))) = some (.refused .dataWidth) ∧
    answerTo (step ((running .mbc1).withRequest (.write 0x1C000 0x00))) = some (.fault (.addr 0x1C000)) ∧
    answerTo (step ((running .mbc1).withRequest (.read 0x10000))) = some (.fault (.addr 0x10000)) ∧
    answerTo (step ((running .mbc1).withRequest (.tick 65536))) = some (.refused .tickRange) := by decide

/-! ## Pseudo-requests: the expansions of R91's table, and where RAMBANK leads (P2, steps 4 and 5) -/

theorem test_pseudo_expansions :
    Pseudo.enram.expand = [.write 0x0000 0x0A] ∧ Pseudo.disram.expand = [.write 0x0000 0x00] ∧
    Pseudo.rommode.expand = [.write 0x6000 0x00] ∧ Pseudo.rammode.expand = [.write 0x6000 0x01] ∧
    (Pseudo.romlo 0x1F).expand = [.write 0x2000 0x1F] ∧ (Pseudo.romhi 0xE0).expand = [.write 0x4000 0xE0] ∧
    (Pseudo.rambank 3).expand = [.write 0x6000 0x01, .write 0x4000 0x03] ∧
    (Pseudo.tstart 0xFA).expand = [.write 0xFF07 0x06] ∧ (Pseudo.tstop 0xFA).expand = [.write 0xFF07 0x02] ∧
    Pseudo.divrst.expand = [.write 0xFF04 0x00] := by decide

theorem test_pseudo_rambank :
    after (core.run 2 ((running .mbc1).withRequests (Pseudo.rambank 1).expand)) =
      some ({ running .mbc1 with romBankingModeActive := false, currentRAMBank := 1 }.answer .done) := by decide

/-! ## LOAD, RESET and the phases -/

/-- An image of 0x149 bytes: the header bytes `h` and `r` at 0x147 and 0x148, every other byte 0. -/
def image (h r : Byte) : List Byte := List.replicate 0x147 0x00 ++ [h, r]

/-- V-LD-10 and V-LD-05: the header's bank modes; V-LD-12: the empty image. -/
theorem test_load_header :
    (after (exec (.load (some (image 0x01 0x03))) State.reset)).map (fun t => (t.cartBankMode, t.cartRamBankCount, t.phase))
      = some (.mbc1, 0x03, .loaded) ∧
    (after (exec (.load (some [])) State.reset)).map (fun t => (t.cartBankMode, t.cartRamBankCount, t.phase))
      = some (.none, 0x00, .loaded) := by decide +kernel

/-- V-LD-13 and V-LD-15. -/
theorem test_load_absent_or_late :
    answerTo (exec (.load none) State.reset) = some (.fault .load) ∧
    answerTo (exec (.load (some [])) loaded) = some (.refused .phase) := by decide

/-- V-LD-01 to V-LD-09: the whole table of header bytes. -/
theorem test_detectBankMode :
    [0x00, 0x01, 0x03, 0x04, 0x05, 0x06, 0x07, 0x13, 0xFF].map detectBankMode =
      [.none, .mbc1, .mbc1, .none, .mbc2, .mbc2, .none, .none, .none] := by decide

/-- V-RS-01, from registers that differ from their power-up values. -/
theorem test_reset_values :
    (after (exec .reset { loaded with currentROMBank := 7, tmc := 5, timerCounter := 3, div := 9 })) =
      some ((running .mbc1).answer .done) := by decide

/-- V-RS-02, V-RS-05 and V-RS-07. -/
theorem test_out_of_phase :
    answerTo (exec .reset State.reset) = some (.refused .phase) ∧
    answerTo (exec (.rdRom0 0x0000) State.reset) = some (.refused .notRunning) ∧
    answerTo (exec (.tick 4) loaded) = some (.refused .notRunning) := by decide

/-! ## The bank controller -/

theorem test_V_M1E_02 : Does (.wrMbc1Ramen 0x1FFF 0x3A) (running .mbc1) { running .mbc1 with ramBankingEnabled := true } := by decide
theorem test_V_M1E_05 : Does (.wrMbc1Ramen 0x1000 0xA0) { running .mbc1 with ramBankingEnabled := true } (running .mbc1) := by decide
theorem test_V_M1L_06 : Does (.wrMbc1Romlo 0x3FFF 0x03) (banked 0xE5) (banked 0xE3) := by decide
theorem test_V_M1L_04 : Does (.wrMbc1Romlo 0x2000 0xE0) (banked 0x01) (banked 0x01) := by decide
theorem test_V_M1H_03 : Does (.wrMbc1Hi 0x4000 0x00) (banked 0x20) (banked 0x01) := by decide
theorem test_V_M1H_07 : Does (.wrMbc1Hi 0x4000 0xFF) (ramBanked 2) (ramBanked 3) := by decide
theorem test_V_M1M_03 :
    Does (.wrMbc1Mode 0x7FFF 0xFE) (ramBanked 3) { ramBanked 0 with romBankingModeActive := true } := by decide
theorem test_V_M1M_04 : Does (.wrMbc1Mode 0x6000 0xFF) (ramBanked 2) (ramBanked 2) := by decide
theorem test_V_M2_02 :
    Does (.wrMbc2Ramen 0x0100 0x0A) (running .mbc2) { running .mbc2 with ramBankingEnabled := true } := by decide
theorem test_V_M2_04 :
    Does (.wrMbc2RamenIgn 0x1FFF 0x00) { running .mbc2 with ramBankingEnabled := true }
      { running .mbc2 with ramBankingEnabled := true } := by decide
theorem test_V_M2_08 :
    Does (.wrMbc2Romlo 0x3FFF 0x1F) (running .mbc2) { running .mbc2 with currentROMBank := 0x0F } := by decide
theorem test_V_M2_09 :
    Does (.wrMbc2Romlo 0x2000 0xF0) { running .mbc2 with currentROMBank := 0x0C } (running .mbc2) := by decide
theorem test_V_M2_10 : Does (.wrMbc2Nop 0x4000 0x03) (running .mbc2) (running .mbc2) := by decide
theorem test_V_NO_01 : Does (.wrNoneNop 0x0000 0x0A) (running .none) (running .none) := by decide

/-! ## Reads -/

/-- V-RD-01: the image byte at 0x0147. -/
theorem test_V_RD_01 :
    answerTo (exec (.rdRom0 0x0147) { banked 0x05 with cartBytes := [(0x147, 0x01)] }) = some (.byte 0x01) := by decide

/-- V-RD-05: the last byte of bank 0x7F. -/
theorem test_V_RD_05 :
    answerTo (exec (.rdRomx 0x7FFF) { banked 0x7F with cartBytes := [(0x1FFFFF, 0x7F)] }) = some (.byte 0x7F) := by decide

/-- V-RD-06. -/
theorem test_V_RD_06 :
    (after (exec (.rdRomx 0x4000) (banked 0x80))).bind (·.fault) = some (.romRange 0x4000 0x80 0x200000) := by decide

theorem test_V_RD_09 :
    answerTo (exec (.rdExtram 0xA123) { ramBanked 2 with external := [(0x4123, 0x66)] }) = some (.byte 0x66) := by decide
theorem test_V_RD_10 :
    answerTo (exec (.rdExtram 0xA123) { ramBanked 2 with ramBankingEnabled := false, external := [(0x4123, 0x66)] }) =
      some (.byte 0xFF) := by decide
theorem test_V_RD_13 :
    answerTo (exec (.rdUnusable 0xFEFF) { running .mbc1 with internal := [(0xFEFF, 0x34)] }) = some (.byte 0xFF) := by decide
theorem test_V_RD_14 :
    answerTo (exec (.rdInternalFe80 0xFE9F) { running .mbc1 with internal := [(0xFE9F, 0x34)] }) = some (.byte 0x34) := by
  decide
theorem test_V_RD_15 : answerTo (exec (.rdTimer 0xFF04) { running .mbc1 with div := 0x9C }) = some (.byte 0x9C) := by decide
theorem test_V_RD_16 : answerTo (exec (.rdTimer 0xFF07) (timed 0xFD 16 1 2)) = some (.byte 0xFD) := by decide
theorem test_V_RD_17 : answerTo (exec (.rdInternalHigh 0xFF40) (running .mbc1)) = some (.byte 0x91) := by decide
theorem test_V_RD_18 : answerTo (exec (.rdInternalHigh 0xFF26) (running .mbc1)) = some (.byte 0xF1) := by decide
theorem test_V_RD_19 :
    answerTo (exec (.rdInternal 0xE010) { running .mbc1 with internal := [(0xC010, 0x11), (0xE010, 0x22)] }) =
      some (.byte 0x22) := by decide

/-- After V-WR-08. -/
theorem test_rdInternalFe00 :
    answerTo (exec (.rdInternalFe00 0xFE00) { running .mbc1 with internal := [(0xFE00, 0x12)] }) = some (.byte 0x12) := by
  decide

/-! ## Writes -/

theorem test_V_WR_01 :
    Does (.wrExtram 0xBFFF 0x12) (ramBanked 3) { ramBanked 3 with external := [(0x7FFF, 0x12)] } := by decide
theorem test_V_WR_02 : Does (.wrExtram 0xA000 0x12) (running .mbc1) (running .mbc1) := by decide
theorem test_V_WR_03 :
    Does (.wrEcho 0xE010 0x5A) (running .mbc1) { running .mbc1 with internal := [(0xC010, 0x5A), (0xE010, 0x5A)] } := by decide
theorem test_V_WR_04 :
    Does (.wrEcho 0xFDFF 0x77) (running .mbc1) { running .mbc1 with internal := [(0xDDFF, 0x77), (0xFDFF, 0x77)] } := by decide
theorem test_V_WR_06 :
    Does (.wrInternal 0xDFFF 0x11) (running .mbc1) { running .mbc1 with internal := [(0xDFFF, 0x11)] } := by decide
theorem test_V_WR_07 : Does (.wrUnusable 0xFEA0 0x12) (running .mbc1) (running .mbc1) := by decide
theorem test_V_WR_08 :
    Does (.wrInternalFe00 0xFE00 0x12) (running .mbc1) { running .mbc1 with internal := [(0xFE00, 0x12)] } := by decide
theorem test_V_WR_09 :
    Does (.wrInternalHigh 0xFF80 0x42) (running .mbc1) { running .mbc1 with internal := [(0xFF80, 0x42)] } := by decide

/-- 0xFE9F is the last address of OAM (R145's region), and writing its power-up value takes the entry off the list. -/
theorem test_wrInternalFe80 :
    Does (.wrInternalFe80 0xFE9F 0x34) (running .mbc1) { running .mbc1 with internal := [(0xFE9F, 0x34)] } ∧
    Does (.wrInternalFe80 0xFE9F 0x00) { running .mbc1 with internal := [(0xFE9F, 0x34)] } (running .mbc1) := by decide

/-! ## The timer -/

theorem test_V_TW_01 :
    Does (.wrDiv 0x77) { running .mbc1 with div := 0x9C, dividerCounter := 200 }
      { running .mbc1 with dividerCounter := 200 } := by decide
theorem test_V_TW_03 : Does (.wrTima 0xFE) (running .mbc1) (timed 0 1024 0xFE 0) := by decide
theorem test_V_TW_04 : Does (.wrTma 0xF0) (running .mbc1) (timed 0 1024 0 0xF0) := by decide
theorem test_V_TW_07 : Does (.wrTmc 0xFD) (timed 0x05 7 0 0) (timed 0xFD 7 0 0) := by decide
theorem test_V_TW_09 : Does (.wrTmc 0x03) (timed 0x05 7 0 0) (timed 0x03 256 0 0) := by decide
theorem test_V_TK_06 :
    after (exec (.tick 4) { running .mbc1 with dividerCounter := 254, div := 0xFF }) =
      some ((running .mbc1).answer (.irq false)) := by decide
theorem test_V_TK_12 :
    after (exec (.tick 16) (timed 0x05 16 0xFF 0xF0)) =
      some ({ timed 0x05 16 0xF0 0xF0 with dividerCounter := 16 }.answer (.irq true)) := by decide

/-! ## Witnesses: for each statement with hypotheses, a state and operands that meet them all

The states are those above; the operands stand at the ends of the ranges that the statement's clauses name. -/

/-- Every row at the first and the last address it takes. -/
theorem witness_DecodeOfEncode :
    ∀ i ∈ [Instr.rdTimer 0xFF04, .rdTimer 0xFF07, .rdInternalHigh 0xFF00, .rdInternalHigh 0xFFFF, .rdInternalFe80 0xFE80,
      .rdInternalFe80 0xFE9F, .rdInternalFe00 0xFE00, .rdInternalFe00 0xFE7F, .rdUnusable 0xFEA0, .rdUnusable 0xFEFF,
      .rdRom0 0x0000, .rdRom0 0x3FFF, .rdRomx 0x4000, .rdRomx 0x7FFF, .rdExtram 0xA000, .rdExtram 0xBFFF, .rdInternal 0x8000,
      .rdInternal 0xFDFF, .wrDiv 1, .wrTima 1, .wrTma 1, .wrTmc 1, .wrInternalHigh 0xFF08 1, .wrInternalHigh 0xFFFF 1,
      .wrInternalFe80 0xFE9F 1, .wrInternalFe00 0xFE00 1, .wrUnusable 0xFEFF 1, .wrEcho 0xE000 1, .wrEcho 0xFDFF 1,
      .wrExtram 0xBFFF 1, .wrMbc1Ramen 0x1FFF 1, .wrMbc1Romlo 0x2000 1, .wrMbc1Hi 0x5FFF 1, .wrMbc1Mode 0x7FFF 1,
      .wrMbc2Ramen 0x1FEF 1, .wrMbc2RamenIgn 0x1FFF 1, .wrMbc2Romlo 0x3FFF 1, .wrMbc2Nop 0x7FFF 1, .wrNoneNop 0x7FFF 1,
      .wrInternal 0x9FFF 1, .wrInternal 0xDFFF 1, .load none, .reset, .tick 0xFFFF], i.wf = true := by decide

/-- Both halves, the reserved bank mode and an ignored READ datum among them. -/
theorem witness_EncodeOfDecode :
    decode (busFrame 0b11 .read 0x3FFF 0xAB) = .ok (.rdRom0 0x3FFF) ∧
    decode (busFrame 0b00 .write 0x7FFF 0xFF) = .ok (.wrNoneNop 0x7FFF 0xFF) ∧
    decode (sysFrame 0 0 (some [1])) = .ok (.load (some [1])) ∧ decode (sysFrame 2 0xFFFF none) = .ok (.tick 0xFFFF) := by
  decide

/-- The clauses of R130 at both ends of their ranges. -/
theorem witness_ReadDispatchIsByRange :
    ∀ c ∈ [(0x0000, Instr.rdRom0 0x0000), (0x3FFF, .rdRom0 0x3FFF), (0x4000, .rdRomx 0x4000), (0x7FFF, .rdRomx 0x7FFF),
      (0x8000, .rdInternal 0x8000), (0x9FFF, .rdInternal 0x9FFF), (0xA000, .rdExtram 0xA000), (0xBFFF, .rdExtram 0xBFFF),
      (0xC000, .rdInternal 0xC000), (0xFDFF, .rdInternal 0xFDFF), (0xFE9F, .rdInternalFe80 0xFE9F),
      (0xFEA0, .rdUnusable 0xFEA0), (0xFEFF, .rdUnusable 0xFEFF), (0xFF00, .rdInternalHigh 0xFF00), (0xFF04, .rdTimer 0xFF04),
      (0xFF07, .rdTimer 0xFF07), (0xFF08, .rdInternalHigh 0xFF08)],
      decodeRequest .mbc2 (.read c.1) = .ok c.2 := by decide

/-- The clauses of R131 at both ends of their ranges. -/
theorem witness_WriteDispatchIsByRange :
    ∀ c ∈ [(0x8000, Instr.wrInternal 0x8000 5), (0x9FFF, .wrInternal 0x9FFF 5), (0xA000, .wrExtram 0xA000 5),
      (0xBFFF, .wrExtram 0xBFFF 5), (0xC000, .wrInternal 0xC000 5), (0xDFFF, .wrInternal 0xDFFF 5), (0xE000, .wrEcho 0xE000 5),
      (0xFDFF, .wrEcho 0xFDFF 5), (0xFE00, .wrInternalFe00 0xFE00 5), (0xFEA0, .wrUnusable 0xFEA0 5),
      (0xFEFF, .wrUnusable 0xFEFF 5), (0xFF03, .wrInternalHigh 0xFF03 5), (0xFF04, .wrDiv 5), (0xFF05, .wrTima 5),
      (0xFF06, .wrTma 5), (0xFF07, .wrTmc 5), (0xFF08, .wrInternalHigh 0xFF08 5)],
      decodeRequest .mbc1 (.write c.1 5) = .ok c.2 := by decide

/-- The windows of R110 at both ends, on each cartridge. -/
theorem witness_RomRangeWritesAreBankCommands :
    (∀ c ∈ [(0x0000, Instr.wrMbc1Ramen 0x0000 5), (0x1FFF, .wrMbc1Ramen 0x1FFF 5), (0x2000, .wrMbc1Romlo 0x2000 5),
      (0x3FFF, .wrMbc1Romlo 0x3FFF 5), (0x4000, .wrMbc1Hi 0x4000 5), (0x5FFF, .wrMbc1Hi 0x5FFF 5),
      (0x6000, .wrMbc1Mode 0x6000 5), (0x7FFF, .wrMbc1Mode 0x7FFF 5)], decodeRequest .mbc1 (.write c.1 5) = .ok c.2) ∧
    (∀ c ∈ [(0x000F, Instr.wrMbc2Ramen 0x000F 5), (0x1FFF, .wrMbc2RamenIgn 0x1FFF 5), (0x2000, .wrMbc2Romlo 0x2000 5),
      (0x4000, .wrMbc2Nop 0x4000 5), (0x7FFF, .wrMbc2Nop 0x7FFF 5)], decodeRequest .mbc2 (.write c.1 5) = .ok c.2) ∧
    decodeRequest .none (.write 0x7FFF 5) = .ok (.wrNoneNop 0x7FFF 5) ∧ (running .mbc2).Ready ∧
    (∃ t, exec (.tick 4) (running .mbc1) = .next t) ∧ ¬ IsCommand (.tick 4) ∧ Instr.tick 4 ≠ .reset :=
  ⟨by decide, by decide, by decide, by decide, ⟨_, rfl⟩, id, by decide⟩

theorem witness_StepRunsTheDecodedRequest :
    ((running .mbc1).withRequest (.write 0x2000 5)).inbox = [.write 0x2000 5] ∧
    decodeRequest ((running .mbc1).withRequest (.write 0x2000 5)).cartBankMode (.write 0x2000 5) =
      .ok (.wrMbc1Romlo 0x2000 5) := by decide

theorem witness_NoRequestNoChange : (running .none).inbox = [] := by decide

theorem witness_EveryRequestIsAnswered : (faulted.withRequest (.sys 3 70000 none)).inbox = [.sys 3 70000 none] := by decide

/-- Each clause's phase, with the least operands that its checks turn away. -/
theorem witness_UndecodableRequestsAreNamed :
    ((running .mbc1).fault = none ∧ (running .mbc1).phase = .running ∧ 0xFF < 0x100 ∧ 0xFFFF < 0x10000 ∧ 0xFF ≤ 0xFF) ∧
    (State.reset.fault = none ∧ State.reset.phase = .unloaded) ∧ loaded.fault = none ∧ loaded.phase = .loaded := by decide

theorem witness_RequestsOutOfPhaseAreRefused :
    (loaded.fault = none ∧ loaded.phase ≠ .running ∧ loaded.phase ≠ .unloaded) ∧
    State.reset.fault = none ∧ State.reset.phase ≠ .running ∧ State.reset.phase ≠ .loaded := by decide

theorem witness_FaultEndsTheSession :
    faulted.fault = some .load ∧ 1 ≤ (faulted.withRequest (.tick 4)).inbox.length ∧
    ∃ t, core.run 1 (faulted.withRequest (.tick 4)) = .next t := ⟨by decide, by decide, _, rfl⟩

/-- The three faults, each raised in a state that meets the invariant. -/
theorem witness_FaultsComeFromTheirOwnRequests :
    (State.reset.Inv ∧ (after (step (State.reset.withRequest (.load none)))).bind (·.fault) = some .load) ∧
    ((running .mbc1).Inv ∧
      (after (step ((running .mbc1).withRequest (.read 0x10000)))).bind (·.fault) = some (.addr 0x10000)) ∧
    (banked 0x80).Inv ∧
      (after (step ((banked 0x80).withRequest (.read 0x7FFF)))).bind (·.fault) = some (.romRange 0x7FFF 0x80 0x203FFF) :=
  ⟨⟨by decide, by decide⟩, ⟨by decide, by decide⟩, by decide, by decide⟩

theorem witness_CartridgeIsImmutableAfterLoad :
    loaded.phase ≠ .unloaded ∧ ∃ t, core.run 2 { loaded with inbox := [.reset, .write 0x2000 5] } = .next t :=
  ⟨by decide, _, rfl⟩

/-- A step of a running session, and the two that start one. -/
theorem witness_StepKeepsTheInvariant :
    ((running .mbc1).withRequest (.write 0xE000 5)).Inv ∧
      (∃ t, step ((running .mbc1).withRequest (.write 0xE000 5)) = .next t) ∧
    (State.reset.withRequest (.load (some [1]))).Inv ∧ (∃ t, step (State.reset.withRequest (.load (some [1]))) = .next t) ∧
    (loaded.withRequest .reset).Inv ∧ ∃ t, step (loaded.withRequest .reset) = .next t :=
  ⟨by decide, ⟨_, rfl⟩, by decide, ⟨_, rfl⟩, by decide, _, rfl⟩

theorem witness_LoadThenResetStartsTheSession :
    State.reset.fault = none ∧ State.reset.phase = .unloaded ∧ [(0x01 : Byte), 0x02].length ≤ 0x200000 ∧
    { State.reset with inbox := [.load (some [0x01, 0x02]), .reset] }.inbox = [.load (some [0x01, 0x02]), .reset] := by decide

/-- The longest source that LOAD takes. -/
theorem witness_LoadCopiesTheImage :
    State.reset.fault = none ∧ State.reset.phase = .unloaded ∧ (List.replicate 0x200000 (0x01 : Byte)).length ≤ 0x200000 :=
  ⟨rfl, rfl, by rw [List.length_replicate]⟩

theorem witness_LoadClassifiesTheHeader :
    State.reset.fault = none ∧ State.reset.phase = .unloaded ∧ (image 0x06 0x00).length ≤ 0x200000 := by
  refine ⟨rfl, rfl, ?_⟩
  rw [image, List.length_append, List.length_replicate]
  decide

/-- The shortest source that LOAD refuses. -/
theorem witness_LoadTrapsAndRefusals :
    State.reset.fault = none ∧ State.reset.phase = .unloaded ∧ 0x200000 < (List.replicate 0x200001 (0x00 : Byte)).length :=
  ⟨rfl, rfl, by rw [List.length_replicate]; decide⟩

theorem witness_ResetSetsPowerUpValues : loaded.fault = none ∧ loaded.phase = .loaded ∧ loaded.Inv := by decide

theorem witness_PowerUpBytesOfInternalMemory :
    ∀ a ∈ [0x8000, 0xFF0F, 0xFF13, 0xFF17, 0xFF4A, 0xFFFF],
      a ∉ [0xFF10, 0xFF11, 0xFF12, 0xFF14, 0xFF16, 0xFF19, 0xFF1A, 0xFF1B, 0xFF1C, 0xFF1E, 0xFF20, 0xFF23, 0xFF24, 0xFF25,
        0xFF26, 0xFF40, 0xFF47, 0xFF48, 0xFF49] := by decide

theorem witness_RamEnableFollowsTheLowerNibble :
    (running .mbc1).Ready ∧ (Instr.wrMbc1Ramen 0x1FFF 0x3A).wf = true ∧ (Instr.wrMbc2Ramen 0x1FEF 0x0A).wf = true := by decide

theorem witness_Mbc1LowBitsOfTheRomBank : (Instr.wrMbc1Romlo 0x3FFF 0xE0).wf = true ∧ (banked 0x01).Ready := by decide

theorem witness_Mbc1HighBitsOrRamBank :
    (Instr.wrMbc1Hi 0x4000 0x00).wf = true ∧ (Instr.wrMbc1Hi 0x5FFF 0xFF).wf = true ∧
    ((banked 0x20).Ready ∧ (banked 0x20).romBankingModeActive = true) ∧
    (ramBanked 2).Ready ∧ (ramBanked 2).romBankingModeActive = false := by decide

theorem witness_Mbc1ModeSelect : (Instr.wrMbc1Mode 0x7FFF 0xFE).wf = true ∧ (ramBanked 3).Ready := by decide

theorem witness_Mbc2RomBank : (Instr.wrMbc2Romlo 0x3FFF 0x10).wf = true ∧ (running .mbc2).Ready := by decide

theorem witness_IgnoredWritesChangeNothing :
    (running .mbc2).Ready ∧ (Instr.wrMbc2RamenIgn 0x1FFF 0x0A).wf = true ∧ (Instr.wrMbc2Nop 0x4000 0x03).wf = true ∧
    (Instr.wrNoneNop 0x7FFF 0x01).wf = true ∧ (Instr.wrUnusable 0xFEA0 0x12).wf = true := by decide

/-- Sessions of both kinds, with a command at the port. -/
theorem witness_BankRegistersOfNoneAndMbc2Sessions :
    ((running .none).Inv ∧ (running .none).phase = .running ∧ (running .none).cartBankMode = .none ∧
      ∃ t, core.run 1 ((running .none).withRequest (.write 0x0000 0x0A)) = .next t) ∧
    (running .mbc2).Inv ∧ (running .mbc2).phase = .running ∧ (running .mbc2).cartBankMode = .mbc2 ∧
      ∃ t, core.run 1 ((running .mbc2).withRequest (.write 0x2000 0xFF)) = .next t :=
  ⟨⟨by decide, rfl, rfl, _, rfl⟩, by decide, rfl, rfl, _, rfl⟩

theorem witness_ReadFixedRomBank :
    (Instr.rdRom0 0x0000).wf = true ∧ (Instr.rdRom0 0x3FFF).wf = true ∧ (banked 0x85).Ready := by decide

theorem witness_ReadSwitchableRomBank :
    (Instr.rdRomx 0x7FFF).wf = true ∧ (banked 0x7F).Ready ∧ (banked 0x7F).currentROMBank.toNat < 0x80 := by decide

theorem witness_ReadPastTheImageFaults :
    (Instr.rdRomx 0x4000).wf = true ∧ (banked 0x80).Ready ∧ 0x80 ≤ (banked 0x80).currentROMBank.toNat := by decide

theorem witness_ReadExternalRam :
    (Instr.rdExtram 0xA000).wf = true ∧ (Instr.rdExtram 0xBFFF).wf = true ∧
    ((ramBanked 3).Ready ∧ (ramBanked 3).ramBankingEnabled = true) ∧
    (running .none).Ready ∧ (running .none).ramBankingEnabled = false := by decide

theorem witness_ReadUnusableRegion : (Instr.rdUnusable 0xFEFF).wf = true ∧ (running .none).Ready := by decide

theorem witness_ReadTimerRegisters :
    (Instr.rdTimer 0xFF04).wf = true ∧ (Instr.rdTimer 0xFF05).wf = true ∧ (Instr.rdTimer 0xFF06).wf = true ∧
    (Instr.rdTimer 0xFF07).wf = true ∧ (timed 0xFD 16 1 2).Ready := by decide

theorem witness_ReadInternalMemory :
    (running .none).Ready ∧ (Instr.rdInternal 0xFDFF).wf = true ∧ (Instr.rdInternalHigh 0xFF08).wf = true ∧
    (Instr.rdInternalFe80 0xFE9F).wf = true ∧ (Instr.rdInternalFe00 0xFE00).wf = true := by decide

/-- A READ that is answered with a byte. -/
theorem witness_ReadsHaveNoSideEffect :
    ∃ t, step ((running .mbc1).withRequest (.read 0xFF40)) = .next t ∧ t.response = some (.byte 0x91) := ⟨_, rfl, by decide⟩

theorem witness_WriteExternalRam :
    (Instr.wrExtram 0xBFFF 0x12).wf = true ∧ ((ramBanked 3).Ready ∧ (ramBanked 3).ramBankingEnabled = true) ∧
    (running .mbc1).Ready ∧ (running .mbc1).ramBankingEnabled = false := by decide

theorem witness_WriteEchoRegion :
    (Instr.wrEcho 0xE000 0x12).wf = true ∧ (Instr.wrEcho 0xFDFF 0x12).wf = true ∧ (running .mbc1).Ready := by decide

theorem witness_WriteInternalMemory :
    (running .none).Ready ∧ (Instr.wrInternal 0xDFFF 1).wf = true ∧ (Instr.wrInternalHigh 0xFFFF 1).wf = true ∧
    (Instr.wrInternalFe80 0xFE80 1).wf = true ∧ (Instr.wrInternalFe00 0xFE00 1).wf = true := by decide

theorem witness_WriteDivClearsIt : ({ running .none with div := 0x9C, dividerCounter := 200 } : State).Ready := by decide

theorem witness_WriteTimaAndTma : (timed 0x05 7 0x10 0x20).Ready := by decide

theorem witness_WriteTmcReloadsOnFrequencyChange : (timed 0x05 7 0x10 0x20).Ready := by decide

theorem witness_WritesAreIdempotent :
    (ramBanked 1).Ready ∧ 0xFFFF ≤ 0xFFFF ∧ 0xFF ≤ 0xFF ∧
    ∃ t, step ((ramBanked 1).withRequest (.write 0xFFFF 0xFF)) = .next t := ⟨by decide, by decide, by decide, _, rfl⟩

/-- The four kinds of address that store their data. -/
theorem witness_ReadFindsTheLastWrite :
    (ramBanked 1).Ready ∧ (∀ a ∈ [0x9FFF, 0xBFFF, 0xE000, 0xFE9F, 0xFF07, 0xFFFF], StoresData (ramBanked 1) a) ∧
    (∃ t, step ((ramBanked 1).withRequest (.write 0xE000 0xFF)) = .next t) ∧
    0xC001 ≤ 0xFFFF ∧ 0xC001 ≠ 0xE000 ∧ ¬ (0xE000 ≤ 0xE000 ∧ 0xE000 < 0xFE00 ∧ 0xC001 = 0xE000 - 0x2000) := by
  refine ⟨by decide, ?_, ⟨_, rfl⟩, by decide, by decide, by decide⟩
  simp [StoresData, ramBanked]

/-- The last two clauses: two values of TMC that differ in bits 7:3 only. -/
theorem witness_FrequencyAndEnableOfTmc :
    (timed 0x05 16 0xFF 0xF0).Ready ∧ (0xFD : Byte).toNat % 8 = (timed 0x05 16 0xFF 0xF0).tmc.toNat % 8 ∧
    (∃ t, exec (.tick 16) (timed 0x05 16 0xFF 0xF0) = .next t) ∧
    ∃ t, exec (.wrTmc 0x06) (timed 0x05 16 0xFF 0xF0) = .next t := ⟨by decide, by decide, ⟨_, rfl⟩, _, rfl⟩

theorem witness_TickCompletesAndWritesOnlyTheCounters : (timed 0x05 16 0xFF 0xF0).Ready := by decide

/-- The two clauses where they meet: 254 and 255 cycles counted. -/
theorem witness_TickDividerStep :
    ({ running .none with dividerCounter := 250 } : State).Ready ∧
    (255 : Int) ≤ { running .none with dividerCounter := 250 }.dividerCounter + (5 : BitVec 16).toNat ∧
    { running .none with dividerCounter := 250 }.dividerCounter + (4 : BitVec 16).toNat < (255 : Int) := by decide

/-- The clauses where they meet: a disabled timer, one cycle left, none left with TIMA at 0xFE and at 0xFF. -/
theorem witness_TickTimerStep :
    ((timed 0x01 16 0xFF 0xF0).Ready ∧ timerEnabled (timed 0x01 16 0xFF 0xF0).tmc = false) ∧
    (timed 0x05 16 0xFE 0xF0).Ready ∧ timerEnabled (timed 0x05 16 0xFE 0xF0).tmc = true ∧
    0 < (timed 0x05 16 0xFE 0xF0).timerCounter - (15 : BitVec 16).toNat ∧
    (timed 0x05 16 0xFE 0xF0).timerCounter - (16 : BitVec 16).toNat ≤ 0 ∧ (timed 0x05 16 0xFE 0xF0).tima ≠ 0xFF ∧
    (timed 0x05 16 0xFF 0xF0).timerCounter - (16 : BitVec 16).toNat ≤ 0 ∧ (timed 0x05 16 0xFF 0xF0).tima = 0xFF := by decide

theorem witness_TickOfZeroChangesNothing : (timed 0x05 1 0xFF 0xF0).Ready ∧ (timed 0x05 1 0xFF 0xF0).TimerInv := by decide

/-- A TICK that raises the interrupt request, at the last cycle. -/
theorem witness_IrqOnlyFromTimaOverflow :
    (∃ t, exec (.tick 16) (timed 0x05 16 0xFF 0xF0) = .next t ∧ t.response = some (.irq true)) ∧
    (timed 0x05 16 0xFF 0xF0).Ready ∧ timerEnabled (timed 0x05 16 0xFF 0xF0).tmc = true ∧
    (timed 0x05 16 0xFF 0xF0).tima = 0xFF ∧ (timed 0x05 16 0xFF 0xF0).timerCounter ≤ ((16 : BitVec 16).toNat : Int) :=
  ⟨⟨_, rfl, by decide⟩, by decide, by decide, by decide, by decide⟩

theorem witness_DividerRate :
    1 ≤ 0xFFFF ∧ (running .none).Ready ∧ (running .none).dividerCounter = 0 ∧ 0 < (255 + (4 - 1)) / 4 := by decide

theorem witness_TimaRate :
    1 ≤ 0xFFFF ∧ (timed 0x05 16 0xFF 0xF0).Ready ∧ timerEnabled (timed 0x05 16 0xFF 0xF0).tmc = true ∧
    (timed 0x05 16 0xFF 0xF0).timerCounter = freqTable (frequencySelect (timed 0x05 16 0xFF 0xF0).tmc) ∧
    0 < (freqTable (frequencySelect (timed 0x05 16 0xFF 0xF0).tmc) + (4 - 1)) / 4 := by decide

/-- An instruction that changes a register, and one that changes none. -/
theorem witness_RegistersChangeOnlyByTheirWriters :
    (∃ t, exec (.wrMbc1Romlo 0x2000 5) (running .mbc1) = .next t ∧ t.currentROMBank ≠ (running .mbc1).currentROMBank) ∧
    ∃ t, exec (.rdRom0 0x0000) (running .mbc1) = .next t := ⟨⟨_, rfl, by decide⟩, _, rfl⟩

/-- The words at the edge of the reserved ones, on either side. -/
theorem witness_ReservedWordsAreExactlyThese :
    decode (busFrame 0b11 .write 0x7FFF 0xFF) = .error .reserved ∧
    decode (busFrame 0b11 .write 0x8000 0xFF) = .ok (.wrInternal 0x8000 0xFF) ∧
    decode (busFrame 0b11 .read 0x7FFF 0xFF) = .ok (.rdRomx 0x7FFF) ∧
    decode (busFrame 0b10 .write 0x7FFF 0xFF) = .ok (.wrMbc2Nop 0x7FFF 0xFF) ∧
    decode (sysFrame 0b01 0x0001 none) = .error .reserved ∧ decode (sysFrame 0b11 0x0000 none) = .error .reserved := by decide

/-- A cartridge of each bank mode, and both banking modes of MBC1. -/
theorem witness_PseudoRequestsHaveTheirNamedEffects :
    ((banked 0x25).Ready ∧ (banked 0x25).cartBankMode ≠ .none ∧ (banked 0x25).cartBankMode = .mbc1 ∧
      (banked 0x25).romBankingModeActive = true) ∧
    ((ramBanked 2).Ready ∧ (ramBanked 2).cartBankMode = .mbc1) ∧
    ((running .mbc2).Ready ∧ (running .mbc2).cartBankMode = .mbc2 ∧ (running .mbc2).cartBankMode ≠ .none) ∧
    (running .none).Ready ∧ (running .none).cartBankMode = .none ∧ (timed 0x05 7 0 0).Ready := by decide

theorem witness_RamBankCountIsNeverRead :
    (∃ t, exec .reset loaded = .next t) ∧ ∀ src, Instr.reset ≠ .load (some src) := ⟨⟨_, rfl⟩, by simp⟩

end Sys2Proof.Machine.Tests
end

section
/-! SUPPORT. Invariants of runs: what every step keeps, a run of any length keeps. -/

namespace Sys2Proof.Machine

/-- The first step of a run that goes on goes on itself. -/
theorem exists_step_of_run_succ {M : Host.Core} {k : Nat} {s t : M.State} (h : M.run (k + 1) s = .next t) :
    ∃ u, M.step s = .next u ∧ M.run k u = .next t := by
  cases hs : M.step s with
  | next u => exact ⟨u, rfl, by rwa [run_succ_of_step hs] at h⟩
  | fault r => simp [Host.Core.run, hs] at h
  | refused r => simp [Host.Core.run, hs] at h

theorem run_keeps {M : Host.Core} {P : M.State → Prop} (hstep : ∀ s t, P s → M.step s = .next t → P t) {k : Nat}
    {s t : M.State} (hs : P s) (h : M.run k s = .next t) : P t := by
  induction k generalizing s with
  | zero => cases h; exact hs
  | succ k ih =>
    obtain ⟨u, hu, hrun⟩ := exists_step_of_run_succ h
    exact ih (hstep s u hs hu) hrun

end Sys2Proof.Machine
end

section
/-! SUPPORT. What keeps the cartridge: LOAD alone writes it, RESET writes the phase, and every other request, served, refused
or faulted, leaves both as they are (R38, R104). -/

namespace Sys2Proof.Machine

open Sys2Proof.Machine.Claims

/-! ## Results that leave the cartridge and the phase -/

theorem sameCart_refl (s : State) : SameCart s s := ⟨rfl, rfl, rfl⟩

theorem sameCart_trans {s t u : State} (hst : SameCart s t) (htu : SameCart t u) : SameCart s u := by
  obtain ⟨hb, hm, hc⟩ := hst
  obtain ⟨hb', hm', hc'⟩ := htu
  exact ⟨hb'.trans hb, hm'.trans hm, hc'.trans hc⟩

/-- Where `k` leads to a next state, the cartridge and the phase are there what they are in `s`. -/
def KeepsCartAndPhase (s : State) (k : Result) : Prop := ∀ t, k = .next t → SameCart s t ∧ t.phase = s.phase

section
variable {s s' : State} {j k : Result}

theorem keeps_respond {r : Response} (hb : s'.cartBytes = s.cartBytes) (hm : s'.cartBankMode = s.cartBankMode)
    (hc : s'.cartRamBankCount = s.cartRamBankCount) (hp : s'.phase = s.phase) : KeepsCartAndPhase s (respond r s') := by
  rintro t ⟨⟩
  exact ⟨⟨hb, hm, hc⟩, hp⟩

theorem keeps_refuse (w : RefuseReason) : KeepsCartAndPhase s (refuse w s) := by
  rintro t ⟨⟩
  exact ⟨sameCart_refl s, rfl⟩

theorem keeps_raiseFault (f : FaultRecord) : KeepsCartAndPhase s (raiseFault f s) := by
  rintro t ⟨⟩
  exact ⟨sameCart_refl s, rfl⟩

theorem keeps_ite {p : Prop} [Decidable p] (hj : KeepsCartAndPhase s j) (hk : KeepsCartAndPhase s k) :
    KeepsCartAndPhase s (if p then j else k) := by
  split
  · exact hj
  · exact hk

theorem keeps_whenUnfaulted (hk : KeepsCartAndPhase s k) : KeepsCartAndPhase s (whenUnfaulted s k) :=
  keeps_ite (keeps_refuse _) hk

theorem keeps_whenRunning (hk : KeepsCartAndPhase s k) : KeepsCartAndPhase s (whenRunning s k) :=
  keeps_whenUnfaulted (keeps_ite hk (keeps_refuse _))

theorem keeps_whenPhase (p : Phase) (hk : KeepsCartAndPhase s k) : KeepsCartAndPhase s (whenPhase p s k) :=
  keeps_whenUnfaulted (keeps_ite hk (keeps_refuse _))

theorem keeps_cartRead (addr : Addr) (offset : Nat) : KeepsCartAndPhase s (cartRead addr offset s) :=
  keeps_ite (keeps_respond rfl rfl rfl rfl) (keeps_raiseFault _)

theorem keeps_ramEnable (data : Byte) : KeepsCartAndPhase s (respond .done (ramEnable data s)) :=
  keeps_respond (ramEnable_cartBytes data s) (ramEnable_cartBankMode data s) (ramEnable_cartRamBankCount data s)
    (ramEnable_phase data s)

theorem keeps_rejectRequest (r : Request) (e : DecodeError) : KeepsCartAndPhase s (rejectRequest r e s) := by
  have hrejected : KeepsCartAndPhase s (rejected e s) := by
    cases e with
    | reserved | dataWidth | tickRange => exact keeps_refuse _
    | badAddress a => exact keeps_raiseFault _
  cases r with
  | bus dir addr data => exact keeps_whenRunning hrejected
  | sys kind operand source =>
    exact keeps_ite (keeps_whenPhase _ hrejected) <| keeps_ite (keeps_whenPhase _ hrejected) <|
      keeps_ite (keeps_whenRunning hrejected) (keeps_whenUnfaulted hrejected)

end

/-! ## The instructions -/

/-- A READ, a WRITE or a TICK leaves the cartridge and the phase. -/
theorem exec_keepsCartAndPhase {i : Instr} (s : State) (hload : ∀ src, i ≠ .load src) (hreset : i ≠ .reset) :
    KeepsCartAndPhase s (exec i s) := by
  cases i with
  | load src => exact absurd rfl (hload src)
  | reset => exact absurd rfl hreset
  | rdTimer _ | rdInternalHigh _ | rdInternalFe80 _ | rdInternalFe00 _ | rdUnusable _ | rdInternal _ =>
    exact keeps_whenRunning (keeps_respond rfl rfl rfl rfl)
  | rdRom0 _ | rdRomx _ => exact keeps_whenRunning (keeps_cartRead _ _)
  | wrDiv _ | wrTima _ | wrTma _ | wrInternalHigh _ _ | wrInternalFe80 _ _ | wrInternalFe00 _ _ | wrInternal _ _
  | wrUnusable _ _ | wrEcho _ _ | wrMbc1Romlo _ _ | wrMbc2RamenIgn _ _ | wrMbc2Romlo _ _ | wrMbc2Nop _ _
  | wrNoneNop _ _ =>
    exact keeps_whenRunning (keeps_respond rfl rfl rfl rfl)
  | wrMbc1Ramen _ data | wrMbc2Ramen _ data => exact keeps_whenRunning (keeps_ramEnable data)
  | rdExtram _ | wrExtram _ _ | wrMbc1Hi _ _ | wrMbc1Mode _ _ | wrTmc _ =>
    exact keeps_whenRunning (keeps_ite (keeps_respond rfl rfl rfl rfl) (keeps_respond rfl rfl rfl rfl))
  | tick cycles =>
    exact keeps_whenRunning (keeps_respond (tickStep_cartBytes _ s) (tickStep_cartBankMode _ s)
      (tickStep_cartRamBankCount _ s) (tickStep_phase _ s))

/-- Past UNLOADED a LOAD is turned away (R38). -/
theorem execLoad_keepsCartAndPhase {s : State} (src : Option (List Byte)) (hs : s.phase ≠ .unloaded) :
    KeepsCartAndPhase s (exec (.load src) s) := by
  intro t h
  rcases whenPhase_cases h with ⟨-, hp, -⟩ | ⟨f, -, rfl⟩ | ⟨-, -, rfl⟩
  · exact absurd hp hs
  · exact ⟨sameCart_refl s, rfl⟩
  · exact ⟨sameCart_refl s, rfl⟩

/-- RESET leaves the cartridge (R201); the phase goes to RUNNING or stays. -/
theorem execReset_sameCart {s t : State} (h : exec .reset s = .next t) :
    SameCart s t ∧ (t.phase = .running ∨ t.phase = s.phase) := by
  rcases whenPhase_cases h with ⟨-, -, hk⟩ | ⟨f, -, rfl⟩ | ⟨-, -, rfl⟩
  · cases hk; exact ⟨sameCart_refl s, .inl rfl⟩
  · exact ⟨sameCart_refl s, .inr rfl⟩
  · exact ⟨sameCart_refl s, .inr rfl⟩

/-! ## Steps and runs -/

/-- Past UNLOADED, and with the cartridge of the earlier state `s`. -/
def LoadedAs (s t : State) : Prop := t.phase ≠ .unloaded ∧ SameCart s t

theorem loadedAs_of_keeps {s t : State} {k : Result} (hk : KeepsCartAndPhase s k) (hs : s.phase ≠ .unloaded)
    (h : k = .next t) : LoadedAs s t := by
  obtain ⟨hcart, hphase⟩ := hk t h
  exact ⟨hphase ▸ hs, hcart⟩

theorem exec_loadedAs {i : Instr} {s t : State} (hs : s.phase ≠ .unloaded) (h : exec i s = .next t) : LoadedAs s t := by
  by_cases hload : ∃ src, i = .load src
  · obtain ⟨src, rfl⟩ := hload
    exact loadedAs_of_keeps (execLoad_keepsCartAndPhase src hs) hs h
  by_cases hreset : i = .reset
  · subst hreset
    obtain ⟨hcart, hrun | hsame⟩ := execReset_sameCart h
    · exact ⟨by simp [hrun], hcart⟩
    · exact ⟨hsame ▸ hs, hcart⟩
  · exact loadedAs_of_keeps (exec_keepsCartAndPhase s (fun src hi => hload ⟨src, hi⟩) hreset) hs h

theorem step_loadedAs {s t : State} (hs : s.phase ≠ .unloaded) (h : step s = .next t) : LoadedAs s t := by
  obtain ⟨-, hstep⟩ | ⟨r, rest, i, -, -, hstep⟩ | ⟨r, rest, e, -, -, hstep⟩ := step_cases s
  · cases hstep.symm.trans h
    exact ⟨hs, sameCart_refl s⟩
  · exact exec_loadedAs (s := { s with inbox := rest }) hs (hstep.symm.trans h)
  · exact loadedAs_of_keeps (s := { s with inbox := rest }) (keeps_rejectRequest r e) hs (hstep.symm.trans h)

theorem loadedAs_step {s t u : State} (hst : LoadedAs s t) (h : step t = .next u) : LoadedAs s u := by
  obtain ⟨hphase, hcart⟩ := hst
  obtain ⟨hphase', hcart'⟩ := step_loadedAs hphase h
  exact ⟨hphase', sameCart_trans hcart hcart'⟩

/-- Settles O13: `LoadedAs s` holds of `s` past UNLOADED, and every step keeps it. -/
theorem cartridgeIsImmutableAfterLoad : Obligations.CartridgeIsImmutableAfterLoad := by
  intro n s t hs hrun
  exact run_keeps (M := core) (P := LoadedAs s) (fun _ _ => loadedAs_step) ⟨hs, sameCart_refl s⟩ hrun

end Sys2Proof.Machine
end

section
/-! SUPPORT. LOAD of a readable source, and DetectBankMode as a table over the header byte's value (R100, R101). -/

namespace Sys2Proof.Machine

open Sys2Proof.Machine.Claims

/-- LOAD accepted (R100). -/
theorem exec_load_some {s : State} {src : List Byte} (hf : s.fault = none) (hp : s.phase = .unloaded)
    (hlen : src.length ≤ 0x200000) : exec (.load (some src)) s = .next ((s.loadImage src).answer .done) := by
  have hsize : src.length ≤ Config.romImageSize := hlen
  calc exec (.load (some src)) s
      = (if src.length ≤ Config.romImageSize then respond .done (s.loadImage src) else refuse .loadTooLarge s) :=
        whenPhase_ok hf hp
    _ = .next ((s.loadImage src).answer .done) := if_pos hsize

/-- The bank mode of a loaded image is the classification of its own header byte. -/
theorem State.cartBankMode_loadImage_eq_detect (src : List Byte) (s : State) :
    (s.loadImage src).cartBankMode = detectBankMode ((s.loadImage src).cartByte 0x147) := rfl

/-- DetectBankMode's branches, by the value of the header byte. -/
theorem detectBankMode_cases (h : Byte) :
    (0x01 ≤ h.toNat ∧ h.toNat ≤ 0x03 ∧ detectBankMode h = .mbc1) ∨
      (0x05 ≤ h.toNat ∧ h.toNat ≤ 0x06 ∧ detectBankMode h = .mbc2) ∨
      ((h.toNat = 0x00 ∨ h.toNat = 0x04 ∨ 0x07 ≤ h.toNat) ∧ detectBankMode h = .none) := by
  unfold detectBankMode
  split
  · next hzero => exact .inr (.inr ⟨.inl (congrArg BitVec.toNat hzero), rfl⟩)
  split
  · exact .inl ⟨by omega, by omega, rfl⟩
  split
  · exact .inr (.inl ⟨by omega, by omega, rfl⟩)
  · exact .inr (.inr ⟨by omega, rfl⟩)

theorem detectBankMode_eq_mbc1_iff (h : Byte) : detectBankMode h = .mbc1 ↔ 0x01 ≤ h.toNat ∧ h.toNat ≤ 0x03 := by
  obtain ⟨hlo, hhi, hd⟩ | ⟨hlo, hhi, hd⟩ | ⟨hother, hd⟩ := detectBankMode_cases h <;> rw [hd]
  · exact iff_of_true rfl ⟨hlo, hhi⟩
  · exact iff_of_false (by decide) (by omega)
  · exact iff_of_false (by decide) (by omega)

theorem detectBankMode_eq_mbc2_iff (h : Byte) : detectBankMode h = .mbc2 ↔ 0x05 ≤ h.toNat ∧ h.toNat ≤ 0x06 := by
  obtain ⟨hlo, hhi, hd⟩ | ⟨hlo, hhi, hd⟩ | ⟨hother, hd⟩ := detectBankMode_cases h <;> rw [hd]
  · exact iff_of_false (by decide) (by omega)
  · exact iff_of_true rfl ⟨hlo, hhi⟩
  · exact iff_of_false (by decide) (by omega)

theorem detectBankMode_eq_none_iff (h : Byte) :
    detectBankMode h = .none ↔ h.toNat = 0x00 ∨ h.toNat = 0x04 ∨ 0x07 ≤ h.toNat := by
  obtain ⟨hlo, hhi, hd⟩ | ⟨hlo, hhi, hd⟩ | ⟨hother, hd⟩ := detectBankMode_cases h <;> rw [hd]
  · exact iff_of_false (by decide) (by omega)
  · exact iff_of_false (by decide) (by omega)
  · exact iff_of_true rfl hother

/-- Settles O19: LOAD stores `detectBankMode` of the image's header byte, and the three equivalences are its table. -/
theorem loadClassifiesTheHeader : Obligations.LoadClassifiesTheHeader := by
  intro s src hf hp hlen
  refine ⟨(s.loadImage src).answer .done, exec_load_some hf hp hlen, ?_⟩
  rw [State.answer_cartBankMode, State.answer_cartByte, State.cartBankMode_loadImage_eq_detect]
  exact ⟨detectBankMode_eq_mbc1_iff _, detectBankMode_eq_mbc2_iff _, detectBankMode_eq_none_iff _⟩

end Sys2Proof.Machine
end

section
/-! SUPPORT. Postconditions of outcomes: what holds of the next state of an admitted request, said once for each shape a
meaning is built of. -/

namespace Sys2Proof.Machine

/-- Where `k` leads to a next state, `P` holds of it. -/
def Ensures (k : Result) (P : State → Prop) : Prop := ∀ t, k = .next t → P t

section
variable {P : State → Prop} {s t : State} {j k : Result}

theorem ensures_next (ht : P t) : Ensures (.next t) P := by
  rintro _ ⟨⟩
  exact ht

theorem ensures_ite {p : Prop} [Decidable p] (hj : Ensures j P) (hk : Ensures k P) :
    Ensures (if p then j else k) P := by
  split
  · exact hj
  · exact hk

theorem ensures_whenRunning (hrefuse : ∀ why, P (s.recordRefusal why)) (hk : Ensures k P) :
    Ensures (whenRunning s k) P := by
  intro t h
  obtain ⟨-, hkt⟩ | ⟨f, -, rfl⟩ | ⟨-, -, rfl⟩ := whenRunning_cases h
  · exact hk t hkt
  · exact hrefuse _
  · exact hrefuse _

theorem ensures_whenPhase (p : Phase) (hrefuse : ∀ why, P (s.recordRefusal why)) (hk : Ensures k P) :
    Ensures (whenPhase p s k) P := by
  intro t h
  obtain ⟨-, -, hkt⟩ | ⟨f, -, rfl⟩ | ⟨-, -, rfl⟩ := whenPhase_cases h
  · exact hk t hkt
  · exact hrefuse _
  · exact hrefuse _

end

end Sys2Proof.Machine
end

section
/-! SUPPORT. The decoding of the WRITEs to [0x0000,0x8000) by R110's table, and of those to the unusable region (R86, R131). -/

namespace Sys2Proof.Machine

open Sys2Proof.Machine.Claims

/-! ## Keys -/

/-- A WRITE of a byte to an address decodes by its key (R81). -/
theorem decodeRequest_write_toNat (m : BankMode) (a : Addr) (d : Byte) :
    decodeRequest m (.write a.toNat d.toNat) = decodeBus (busKey m.code .write a) d := by
  have ha := a.isLt
  have hd := d.isLt
  rw [decodeRequest_write m (by omega) (by omega), BitVec.ofNat_toNat, BitVec.setWidth_eq, BitVec.ofNat_toNat,
    BitVec.setWidth_eq]

/-- The key of a ROM-range WRITE, `K[16:15] = 0b10`, is in none of the rows 1 to 19, nor in row 29 (R86). -/
theorem decodeBus_romWrite {k : Nat} (hk : k / 32768 % 4 = 2) (d : Byte) :
    decodeBus k d =
      if k / 8192 % 64 = 24 then .ok (.wrMbc1Ramen (BitVec.ofNat 16 k) d)
      else if k / 8192 % 64 = 25 then .ok (.wrMbc1Romlo (BitVec.ofNat 16 k) d)
      else if k / 8192 % 64 = 26 then .ok (.wrMbc1Hi (BitVec.ofNat 16 k) d)
      else if k / 8192 % 64 = 27 then .ok (.wrMbc1Mode (BitVec.ofNat 16 k) d)
      else if k / 8192 % 64 = 40 ∧ k / 16 % 2 = 0 then .ok (.wrMbc2Ramen (BitVec.ofNat 16 k) d)
      else if k / 8192 % 64 = 40 ∧ k / 16 % 2 = 1 then .ok (.wrMbc2RamenIgn (BitVec.ofNat 16 k) d)
      else if k / 8192 % 64 = 41 then .ok (.wrMbc2Romlo (BitVec.ofNat 16 k) d)
      else if k / 16384 % 32 = 21 then .ok (.wrMbc2Nop (BitVec.ofNat 16 k) d)
      else if k / 32768 % 16 = 2 then .ok (.wrNoneNop (BitVec.ofNat 16 k) d)
      else .error .reserved := by
  have hrow29 : ¬ k / 32768 % 4 = 3 := by omega
  rw [decodeBus_chain]
  iterate 19 rw [if_neg (by omega)]
  rw [if_neg hrow29]

/-! ## The table of R110 -/

/-- R110's table names a command for every mode, address and datum. -/
theorem exists_commandCase (m : BankMode) (a : Addr) (d : Byte) : ∃ i, CommandCase m a d i ∧ IsCommand i := by
  cases m with
  | none => exact ⟨_, rfl, trivial⟩
  | mbc1 | mbc2 =>
    simp only [CommandCase]
    split_ifs <;> exact ⟨_, rfl, trivial⟩

/-- A ROM-range WRITE decodes to the command that R110's table names: the fields of the key that rows 20 to 28 compare are
the mode's code and the address window. -/
theorem decodeRequest_command {m : BankMode} {a : Addr} {d : Byte} {i : Instr} (ha : a.toNat < 0x8000)
    (hi : CommandCase m a d i) : decodeRequest m (.write a.toNat d.toNat) = .ok i := by
  rw [decodeRequest_write_toNat]
  cases m with
  | none =>
    have hkey : busKey BankMode.none.code .write a = 0x10000 + a.toNat := busKey_write_none a
    rw [decodeBus_romWrite (by omega), addr_of_busKey, hkey]
    cases hi
    iterate 8 rw [if_neg (by omega)]
    rw [if_pos (by omega)]
  | mbc1 =>
    have hkey : busKey BankMode.mbc1.code .write a = 0x30000 + a.toNat := busKey_write_mbc1 a
    rw [decodeBus_romWrite (by omega), addr_of_busKey, hkey]
    simp only [CommandCase] at hi
    split at hi
    · cases hi; rw [if_pos (by omega)]
    rw [if_neg (by omega)]
    split at hi
    · cases hi; rw [if_pos (by omega)]
    rw [if_neg (by omega)]
    split at hi
    · cases hi; rw [if_pos (by omega)]
    · cases hi; rw [if_neg (by omega), if_pos (by omega)]
  | mbc2 =>
    have hkey : busKey BankMode.mbc2.code .write a = 0x50000 + a.toNat := busKey_write_mbc2 a
    rw [decodeBus_romWrite (by omega), addr_of_busKey, hkey]
    iterate 4 rw [if_neg (by omega)]
    simp only [CommandCase] at hi
    split at hi
    · split at hi
      · cases hi; rw [if_pos (by omega)]
      · cases hi; rw [if_neg (by omega), if_pos (by omega)]
    iterate 2 rw [if_neg (by omega)]
    split at hi
    · cases hi; rw [if_pos (by omega)]
    · cases hi; rw [if_neg (by omega), if_pos (by omega)]

/-! ## One row each -/

section
variable {a : Addr} {d : Byte}

theorem decode_wrMbc1Ramen (hwf : (Instr.wrMbc1Ramen a d).wf = true) :
    decodeRequest .mbc1 (.write a.toNat d.toNat) = .ok (.wrMbc1Ramen a d) := by
  obtain ⟨-, hhi⟩ := Addr.within_iff.1 hwf
  refine decodeRequest_command (by omega) ?_
  rw [CommandCase, if_pos (by omega)]

theorem decode_wrMbc1Romlo (hwf : (Instr.wrMbc1Romlo a d).wf = true) :
    decodeRequest .mbc1 (.write a.toNat d.toNat) = .ok (.wrMbc1Romlo a d) := by
  obtain ⟨hlo, hhi⟩ := Addr.within_iff.1 hwf
  refine decodeRequest_command (by omega) ?_
  rw [CommandCase, if_neg (by omega), if_pos (by omega)]

theorem decode_wrMbc1Hi (hwf : (Instr.wrMbc1Hi a d).wf = true) :
    decodeRequest .mbc1 (.write a.toNat d.toNat) = .ok (.wrMbc1Hi a d) := by
  obtain ⟨hlo, hhi⟩ := Addr.within_iff.1 hwf
  refine decodeRequest_command (by omega) ?_
  rw [CommandCase, if_neg (by omega), if_neg (by omega), if_pos (by omega)]

theorem decode_wrMbc1Mode (hwf : (Instr.wrMbc1Mode a d).wf = true) :
    decodeRequest .mbc1 (.write a.toNat d.toNat) = .ok (.wrMbc1Mode a d) := by
  obtain ⟨hlo, hhi⟩ := Addr.within_iff.1 hwf
  refine decodeRequest_command (by omega) ?_
  rw [CommandCase, if_neg (by omega), if_neg (by omega), if_neg (by omega)]

theorem decode_wrMbc2Ramen (hwf : (Instr.wrMbc2Ramen a d).wf = true) :
    decodeRequest .mbc2 (.write a.toNat d.toNat) = .ok (.wrMbc2Ramen a d) := by
  simp only [Instr.wf, Bool.and_eq_true, addr_bit4, Bool.not_eq_true', decide_eq_false_iff_not, Addr.within_iff] at hwf
  obtain ⟨⟨-, hhi⟩, hbit⟩ := hwf
  refine decodeRequest_command (by omega) ?_
  rw [CommandCase, if_pos (by omega), if_pos (by omega)]

theorem decode_wrMbc2RamenIgn (hwf : (Instr.wrMbc2RamenIgn a d).wf = true) :
    decodeRequest .mbc2 (.write a.toNat d.toNat) = .ok (.wrMbc2RamenIgn a d) := by
  simp only [Instr.wf, Bool.and_eq_true, addr_bit4, decide_eq_true_eq, Addr.within_iff] at hwf
  obtain ⟨⟨-, hhi⟩, hbit⟩ := hwf
  refine decodeRequest_command (by omega) ?_
  rw [CommandCase, if_pos (by omega), if_neg (by omega)]

theorem decode_wrMbc2Romlo (hwf : (Instr.wrMbc2Romlo a d).wf = true) :
    decodeRequest .mbc2 (.write a.toNat d.toNat) = .ok (.wrMbc2Romlo a d) := by
  obtain ⟨hlo, hhi⟩ := Addr.within_iff.1 hwf
  refine decodeRequest_command (by omega) ?_
  rw [CommandCase, if_neg (by omega), if_pos (by omega)]

theorem decode_wrMbc2Nop (hwf : (Instr.wrMbc2Nop a d).wf = true) :
    decodeRequest .mbc2 (.write a.toNat d.toNat) = .ok (.wrMbc2Nop a d) := by
  obtain ⟨hlo, hhi⟩ := Addr.within_iff.1 hwf
  refine decodeRequest_command (by omega) ?_
  rw [CommandCase, if_neg (by omega), if_neg (by omega)]

theorem decode_wrNoneNop (hwf : (Instr.wrNoneNop a d).wf = true) :
    decodeRequest .none (.write a.toNat d.toNat) = .ok (.wrNoneNop a d) := by
  obtain ⟨-, hhi⟩ := Addr.within_iff.1 hwf
  exact decodeRequest_command (by omega) rfl

/-- Row 17, behind the rows 15 and 16 of the same page (R86). -/
theorem decode_wrUnusable (hwf : (Instr.wrUnusable a d).wf = true) :
    DecodesAlways (.write a.toNat d.toNat) (.wrUnusable a d) := by
  intro m
  obtain ⟨hlo, hhi⟩ := Addr.within_iff.1 hwf
  have hkey := busKey_write m.code a
  rw [decodeRequest_write_toNat, decodeBus_chain, addr_of_busKey, hkey]
  iterate 16 rw [if_neg (by omega)]
  rw [if_pos (by omega)]

end

end Sys2Proof.Machine
end

section
/-! SUPPORT. The data fields of the bank-control commands as arithmetic (R87), and the whole next state of each command that
writes a register (R111 to R118). -/

namespace Sys2Proof.Machine

/-! ## Fields of the data byte (R87) -/

theorem toNat_lowNibble (d : Byte) : (d &&& 0x0F).toNat = d.toNat % 16 := Nat.and_two_pow_sub_one_eq_mod d.toNat 4

theorem toNat_romLowBits (d : Byte) : (romLowBits d).toNat = d.toNat % 32 := Nat.and_two_pow_sub_one_eq_mod d.toNat 5

theorem toNat_romHighBits (d : Byte) : (romHighBits d).toNat = d.toNat / 32 * 32 := by
  have hd := d.isLt
  calc (romHighBits d).toNat
      = d.toNat / 32 % 8 * 32 := and_field d.toNat 3 5
    _ = d.toNat / 32 * 32 := by omega

/-- High bits kept in place and low bits do not overlap (R112, R113). -/
theorem toNat_romHighBits_or_romLowBits (b d : Byte) :
    (romHighBits b ||| romLowBits d).toNat = b.toNat / 32 * 32 + d.toNat % 32 := by
  have hlow : d.toNat % 32 < 2 ^ 5 := by omega
  rw [BitVec.toNat_or, toNat_romHighBits, toNat_romLowBits, Nat.mul_comm]
  exact (Nat.two_pow_add_eq_or_of_lt hlow (b.toNat / 32)).symm

theorem ramBankBits_eq (d : Byte) : ramBankBits d = BitVec.ofNat 2 (d.toNat % 4) := by
  apply BitVec.eq_of_toNat_eq
  simp [ramBankBits]

theorem selectsRomBanking_eq (d : Byte) : selectsRomBanking d = decide (d.toNat % 2 = 0) := by
  have hbit : (d &&& 0x01).toNat = d.toNat % 2 := Nat.and_two_pow_sub_one_eq_mod d.toNat 1
  rw [selectsRomBanking, Bool.eq_iff_iff, beq_iff_eq, decide_eq_true_eq, ← BitVec.toNat_inj, hbit]
  exact Iff.rfl

/-- The force to 1 is the maximum with 1 (R27). -/
theorem forceBank_eq (b : Byte) : forceBank b = BitVec.ofNat 8 (max 1 b.toNat) := by
  unfold forceBank
  split
  next hzero => rw [hzero]; rfl
  next hpos =>
    have hone : 1 ≤ b.toNat := Nat.one_le_iff_ne_zero.2 fun h => hpos (BitVec.eq_of_toNat_eq h)
    rw [Nat.max_eq_right hone, BitVec.ofNat_toNat, BitVec.setWidth_eq]

theorem ramEnableNibble_eq_iff (d n : Byte) : ramEnableNibble d = n ↔ d.toNat % 16 = n.toNat := by
  rw [← BitVec.toNat_inj, ramEnableNibble, toNat_lowNibble]

/-- The RAM-enable command writes the enable bit only (R111, R115). -/
theorem ramEnable_eq (d : Byte) (s : State) :
    ramEnable d s = { s with
      ramBankingEnabled :=
        if d.toNat % 16 = 10 then true else if d.toNat % 16 = 0 then false else s.ramBankingEnabled } := by
  have hA : ramEnableNibble d = 0x0A ↔ d.toNat % 16 = 10 := ramEnableNibble_eq_iff d 0x0A
  have h0 : ramEnableNibble d = 0x00 ↔ d.toNat % 16 = 0 := ramEnableNibble_eq_iff d 0x00
  simp only [ramEnable, hA, h0]
  split_ifs <;> rfl

/-! ## The commands on a Ready block -/

/-- MBC2's RAM enable is MBC1's (R115). -/
theorem exec_wrMbc2Ramen_eq (a : Addr) (d : Byte) (s : State) :
    exec (.wrMbc2Ramen a d) s = exec (.wrMbc1Ramen a d) s := rfl

section
variable {s : State} (a : Addr) (d : Byte) (h : s.Ready)
include h

theorem exec_wrMbc1Ramen :
    exec (.wrMbc1Ramen a d) s = .next { s with
      ramBankingEnabled :=
        if d.toNat % 16 = 10 then true else if d.toNat % 16 = 0 then false else s.ramBankingEnabled
      response := some .done } := by
  calc exec (.wrMbc1Ramen a d) s
      = .next ((ramEnable d s).answer .done) := whenRunning_ready h
    _ = _ := by rw [ramEnable_eq]; rfl

theorem exec_wrMbc1Romlo :
    exec (.wrMbc1Romlo a d) s = .next { s with
      currentROMBank := BitVec.ofNat 8 (max 1 (s.currentROMBank.toNat / 32 * 32 + d.toNat % 32))
      response := some .done } := by
  rw [← toNat_romHighBits_or_romLowBits, ← forceBank_eq]
  exact whenRunning_ready h

theorem exec_wrMbc1Hi_romBanking (hm : s.romBankingModeActive = true) :
    exec (.wrMbc1Hi a d) s = .next { s with
      currentROMBank := BitVec.ofNat 8 (max 1 (s.currentROMBank.toNat % 32 + d.toNat / 32 * 32))
      response := some .done } := by
  rw [Nat.add_comm, ← toNat_romHighBits_or_romLowBits, ← forceBank_eq, BitVec.or_comm]
  exact (whenRunning_ready h).trans (if_pos hm)

theorem exec_wrMbc1Hi_ramBanking (hm : s.romBankingModeActive = false) :
    exec (.wrMbc1Hi a d) s = .next { s with
      currentRAMBank := BitVec.ofNat 2 (d.toNat % 4)
      response := some .done } := by
  rw [← ramBankBits_eq]
  exact (whenRunning_ready h).trans (if_neg (by simp [hm]))

theorem exec_wrMbc1Mode :
    exec (.wrMbc1Mode a d) s = .next { s with
      romBankingModeActive := decide (d.toNat % 2 = 0)
      currentRAMBank := if d.toNat % 2 = 0 then 0 else s.currentRAMBank
      response := some .done } := by
  refine (whenRunning_ready h).trans ?_
  rw [selectsRomBanking_eq]
  by_cases hd : d.toNat % 2 = 0
  · simp only [hd, decide_true, if_true]; rfl
  · simp only [hd, decide_false, if_false]; rfl

theorem exec_wrMbc2Romlo :
    exec (.wrMbc2Romlo a d) s = .next { s with
      currentROMBank := BitVec.ofNat 8 (max 1 (d.toNat % 16))
      response := some .done } := by
  rw [← toNat_lowNibble, ← forceBank_eq]
  exact whenRunning_ready h

end

end Sys2Proof.Machine
end

section
/-! SUPPORT. The bank-control commands complete and write the bank registers only, and no other instruction but RESET writes
one (R110). -/

namespace Sys2Proof.Machine

open Sys2Proof.Machine.Claims

/-- `t` is `s` but for the registers of the bank controller and the response, which is `done`. -/
def OnlyBankWritten (s t : State) : Prop :=
  t.response = some .done ∧
    { t with
      romBankingModeActive := s.romBankingModeActive, currentROMBank := s.currentROMBank
      ramBankingEnabled := s.ramBankingEnabled, currentRAMBank := s.currentRAMBank, response := s.response } = s

theorem exec_command_onlyBankWritten {i : Instr} {s : State} (hi : IsCommand i) (h : s.Ready) :
    ∃ t, exec i s = .next t ∧ OnlyBankWritten s t := by
  cases i with
  | wrMbc1Ramen a d => exact ⟨_, exec_wrMbc1Ramen a d h, rfl, rfl⟩
  | wrMbc2Ramen a d =>
    rw [exec_wrMbc2Ramen_eq]
    exact ⟨_, exec_wrMbc1Ramen a d h, rfl, rfl⟩
  | wrMbc1Romlo a d => exact ⟨_, exec_wrMbc1Romlo a d h, rfl, rfl⟩
  | wrMbc1Hi a d =>
    cases hm : s.romBankingModeActive with
    | true => exact ⟨_, exec_wrMbc1Hi_romBanking a d h hm, rfl, rfl⟩
    | false => exact ⟨_, exec_wrMbc1Hi_ramBanking a d h hm, rfl, rfl⟩
  | wrMbc1Mode a d => exact ⟨_, exec_wrMbc1Mode a d h, rfl, rfl⟩
  | wrMbc2Romlo a d => exact ⟨_, exec_wrMbc2Romlo a d h, rfl, rfl⟩
  | wrMbc2RamenIgn _ _ | wrMbc2Nop _ _ | wrNoneNop _ _ => exact ⟨_, whenRunning_ready h, rfl, rfl⟩
  | _ => exact False.elim hi

/-- A meaning that answers, refuses or faults without a bank register written keeps the bank controller. -/
theorem exec_ensures_sameBank {i : Instr} (s : State) (hcommand : ¬ IsCommand i) (hreset : i ≠ .reset) :
    Ensures (exec i s) (SameBank s) := by
  have hrunning {k : Result} (hk : Ensures k (SameBank s)) : Ensures (whenRunning s k) (SameBank s) :=
    ensures_whenRunning (fun _ => ⟨rfl, rfl, rfl, rfl⟩) hk
  cases i with
  | reset => exact absurd rfl hreset
  | rdTimer _ | rdInternalHigh _ | rdInternalFe80 _ | rdInternalFe00 _ | rdUnusable _ | rdInternal _
  | wrDiv _ | wrTima _ | wrTma _ | wrInternalHigh _ _ | wrInternalFe80 _ _ | wrInternalFe00 _ _ | wrUnusable _ _
  | wrEcho _ _ | wrInternal _ _ => exact hrunning (ensures_next ⟨rfl, rfl, rfl, rfl⟩)
  | rdRom0 _ | rdRomx _ | rdExtram _ | wrTmc _ | wrExtram _ _ =>
    exact hrunning (ensures_ite (ensures_next ⟨rfl, rfl, rfl, rfl⟩) (ensures_next ⟨rfl, rfl, rfl, rfl⟩))
  | load source =>
    refine ensures_whenPhase _ (fun _ => ⟨rfl, rfl, rfl, rfl⟩) ?_
    cases source with
    | none => exact ensures_next ⟨rfl, rfl, rfl, rfl⟩
    | some src => exact ensures_ite (ensures_next ⟨rfl, rfl, rfl, rfl⟩) (ensures_next ⟨rfl, rfl, rfl, rfl⟩)
  | tick cycles =>
    exact hrunning (ensures_next ⟨tickStep_romBankingModeActive _ s, tickStep_currentROMBank _ s,
      tickStep_ramBankingEnabled _ s, tickStep_currentRAMBank _ s⟩)
  | _ => exact absurd trivial hcommand

/-- Settles O23: R110's table by `decodeRequest_command`, and both directions of "changes the bank controller" by cases over
the instructions. -/
theorem romRangeWritesAreBankCommands : Obligations.RomRangeWritesAreBankCommands := by
  constructor
  · intro m a d ha
    obtain ⟨i, hcase, hcommand⟩ := exists_commandCase m a d
    exact ⟨i, decodeRequest_command ha hcase, hcase, fun s h => exec_command_onlyBankWritten hcommand h⟩
  · intro i s t ht hcommand hreset
    exact exec_ensures_sameBank s hcommand hreset t ht

end Sys2Proof.Machine
end

section
/-! SUPPORT. The statements of the single bank-control commands: each is its decoding and its next state (R111 to R119). -/

namespace Sys2Proof.Machine

open Sys2Proof.Machine.Claims

/-- Settles O24: the nibble's cases are those of `ramEnable_eq`, on MBC2 as on MBC1. -/
theorem ramEnableFollowsTheLowerNibble : Obligations.RamEnableFollowsTheLowerNibble := by
  intro addr data s h
  rw [exec_wrMbc2Ramen_eq]
  exact ⟨fun hwf => ⟨decode_wrMbc1Ramen hwf, exec_wrMbc1Ramen addr data h⟩,
    fun hwf => ⟨decode_wrMbc2Ramen hwf, exec_wrMbc1Ramen addr data h⟩⟩

/-- Settles O25: kept high bits and taken low bits do not overlap, so their bitwise or is a sum. -/
theorem mbc1LowBitsOfTheRomBank : Obligations.Mbc1LowBitsOfTheRomBank :=
  fun addr data _ hwf h => ⟨decode_wrMbc1Romlo hwf, exec_wrMbc1Romlo addr data h⟩

/-- Settles O26: the banking mode chooses between the two next states. -/
theorem mbc1HighBitsOrRamBank : Obligations.Mbc1HighBitsOrRamBank :=
  fun addr data _ hwf h =>
    ⟨decode_wrMbc1Hi hwf, exec_wrMbc1Hi_romBanking addr data h, exec_wrMbc1Hi_ramBanking addr data h⟩

/-- Settles O27: both branches of the mode bit are one next state, with the RAM bank cleared in ROM mode only. -/
theorem mbc1ModeSelect : Obligations.Mbc1ModeSelect :=
  fun addr data _ hwf h => ⟨decode_wrMbc1Mode hwf, exec_wrMbc1Mode addr data h⟩

/-- Settles O28: no bit of the old bank stands in the next state. -/
theorem mbc2RomBank : Obligations.Mbc2RomBank :=
  fun addr data _ hwf h => ⟨decode_wrMbc2Romlo hwf, exec_wrMbc2Romlo addr data h⟩

/-- Settles O29: the four meanings are one, an answer and nothing else. -/
theorem ignoredWritesChangeNothing : Obligations.IgnoredWritesChangeNothing := by
  intro addr data s h
  have hdone : whenRunning s (respond .done s) = .next { s with response := some .done } := whenRunning_ready h
  exact ⟨fun hwf => ⟨decode_wrMbc2RamenIgn hwf, hdone⟩, fun hwf => ⟨decode_wrMbc2Nop hwf, hdone⟩,
    fun hwf => ⟨decode_wrNoneNop hwf, hdone⟩, fun hwf => ⟨decode_wrUnusable hwf, hdone⟩⟩

end Sys2Proof.Machine
end

section
/-! SUPPORT. The decoding of the READ rows, and of the WRITE rows that store a byte of internal memory or of external RAM:
the same in every bank mode, whose field of the key these rows do not compare (R86, R130, R131). -/

namespace Sys2Proof.Machine

open Sys2Proof.Machine.Claims

section
variable {a : Addr} {d : Byte} {i : Instr}

/-- A READ of an address decodes by its key (R81). -/
theorem decodeRequest_read_toNat (m : BankMode) (a : Addr) :
    decodeRequest m (.read a.toNat) = decodeBus (busKey m.code .read a) 0 := by
  have ha := a.isLt
  rw [decodeRequest_read m 0 (by omega), BitVec.ofNat_toNat, BitVec.setWidth_eq]

/-- Rows 1 to 9, RD_INTERNAL's first: every row above an address's own passes it over, down to the one that takes it. -/
theorem decodesAlways_read
    (hi : i ∈ [Instr.rdInternal a, .rdInternalHigh a, .rdInternalFe80 a, .rdInternalFe00 a] ++
      [Instr.rdTimer a, .rdUnusable a, .rdRom0 a, .rdRomx a, .rdExtram a])
    (hwf : i.wf = true) : DecodesAlways (.read a.toNat) i := by
  intro m
  have ha := a.isLt
  have hkey := busKey_read m.code a
  rw [decodeRequest_read_toNat, decodeBus_chain, addr_of_busKey, hkey]
  simp only [List.cons_append, List.nil_append, List.mem_cons, List.not_mem_nil, or_false] at hi
  rcases hi with rfl | rfl | rfl | rfl | rfl | rfl | rfl | rfl | rfl
  all_goals
    simp only [Instr.wf, Addr.highPage, Bool.or_eq_true, Addr.within_iff] at hwf
    repeat rw [if_neg (by omega)]
    exact if_pos (by omega)

/-- Rows 14 to 16 and 29, WR_INTERNAL's, and rows 18 and 19, in the same way; rows 1 to 9 take no WRITE's key. -/
theorem decodesAlways_store
    (hi : i ∈ [Instr.wrInternal a d, .wrInternalHigh a d, .wrInternalFe80 a d, .wrInternalFe00 a d] ++
      [Instr.wrEcho a d, .wrExtram a d])
    (hwf : i.wf = true) : DecodesAlways (.write a.toNat d.toNat) i := by
  intro m
  have ha := a.isLt
  have hkey := busKey_write m.code a
  rw [decodeRequest_write_toNat, decodeBus_chain, addr_of_busKey, hkey]
  iterate 9 rw [if_neg (by omega)]
  simp only [List.cons_append, List.nil_append, List.mem_cons, List.not_mem_nil, or_false] at hi
  rcases hi with rfl | rfl | rfl | rfl | rfl | rfl
  all_goals
    simp only [Instr.wf, Addr.highPage, Bool.or_eq_true, Addr.within_iff] at hwf
    repeat rw [if_neg (by omega)]
    exact if_pos (by omega)

end

end Sys2Proof.Machine
end

section
/-! SUPPORT. The READs of the image and of internal memory, and the WRITEs that store a byte, on a Ready block; then the
statements of these rows (R132, R137 to R139, R145). -/

namespace Sys2Proof.Machine

open Sys2Proof.Machine.Claims

/-! ## Storing a byte writes one storage -/

theorem onlyIntWritten_internal (m : Memory) (s : State) :
    OnlyIntWritten s ({ s with internal := m }.answer .done) := by
  cases s
  exact ⟨rfl, rfl⟩

theorem onlyExtWritten_external (m : Memory) (s : State) :
    OnlyExtWritten s ({ s with external := m }.answer .done) := by
  cases s
  exact ⟨rfl, rfl⟩

/-- The echo region is 0x2000 above the work RAM it mirrors (R139). -/
theorem toNat_echoTarget {a : Addr} (h : 0x2000 ≤ a.toNat) : (echoTarget a).toNat = a.toNat - 0x2000 :=
  BitVec.toNat_sub_of_le h

/-! ## The rows on a Ready block -/

section
variable {s : State} (a : Addr) (d : Byte) {i : Instr} (h : s.Ready)
include h

/-- The fixed window lies inside the image, so that its read cannot fault (R103, R132). -/
theorem exec_rdRom0 (hwf : (Instr.rdRom0 a).wf = true) :
    exec (.rdRom0 a) s = .next (s.answer (.byte (s.cartByte a.toNat))) := by
  obtain ⟨-, hhi⟩ := Addr.within_iff.1 hwf
  exact (whenRunning_ready h).trans (cartRead_inside (by omega))

/-- The four rows of RD_INTERNAL have one meaning (R137). -/
theorem exec_rdInternalRow
    (hi : i ∈ [Instr.rdInternal a, .rdInternalHigh a, .rdInternalFe80 a, .rdInternalFe00 a]) :
    exec i s = .next (s.answer (.byte (s.intByte a.toNat))) := by
  simp only [List.mem_cons, List.not_mem_nil, or_false] at hi
  rcases hi with rfl | rfl | rfl | rfl <;> exact whenRunning_ready h

/-- The four rows of WR_INTERNAL have one meaning (R145). -/
theorem exec_wrInternalRow
    (hi : i ∈ [Instr.wrInternal a d, .wrInternalHigh a d, .wrInternalFe80 a d, .wrInternalFe00 a d]) :
    exec i s = .next ((s.setInt a.toNat d).answer .done) := by
  simp only [List.mem_cons, List.not_mem_nil, or_false] at hi
  rcases hi with rfl | rfl | rfl | rfl <;> exact whenRunning_ready h

theorem exec_wrEcho :
    exec (.wrEcho a d) s = .next (((s.setInt a.toNat d).setInt (echoTarget a).toNat d).answer .done) :=
  whenRunning_ready h

theorem exec_wrExtram_enabled (hram : s.ramBankingEnabled = true) :
    exec (.wrExtram a d) s = .next ((s.setExt (extOffset a s.currentRAMBank) d).answer .done) :=
  (whenRunning_ready h).trans (if_pos hram)

theorem exec_wrExtram_disabled (hram : s.ramBankingEnabled = false) :
    exec (.wrExtram a d) s = .next (s.answer .done) :=
  (whenRunning_ready h).trans (if_neg (by simp [hram]))

end

/-! ## The statements -/

/-- Settles O31: the bank registers are in neither the row's offset nor its check against the image's end. -/
theorem readFixedRomBank : Obligations.ReadFixedRomBank :=
  fun addr _ hwf h => ⟨decodesAlways_read (by simp) hwf, exec_rdRom0 addr h hwf⟩

/-- Settles O37: the four rows read the address they were given. -/
theorem readInternalMemory : Obligations.ReadInternalMemory :=
  fun addr _ h _ hi hwf => ⟨decodesAlways_read (List.mem_append_left _ hi) hwf, exec_rdInternalRow addr h hi⟩

/-- Settles O39: enabled, the next state is `setExt`'s at the translated offset; disabled, it is an answer alone. -/
theorem writeExternalRam : Obligations.WriteExternalRam := by
  intro addr data s hwf h
  refine ⟨decodesAlways_store (by simp) hwf, fun hram => ⟨rfl, ?_⟩, exec_wrExtram_disabled addr data h⟩
  refine ⟨_, exec_wrExtram_enabled addr data h hram, onlyExtWritten_external _ s, fun o => ?_⟩
  rw [State.answer_extByte, State.extByte_setExt]

/-- Settles O40: two stores of one byte, of which the second reads back first. -/
theorem writeEchoRegion : Obligations.WriteEchoRegion := by
  intro addr data s hwf h
  obtain ⟨hlo, hhi⟩ := Addr.within_iff.1 hwf
  have htarget : (echoTarget addr).toNat = addr.toNat - 0x2000 := toNat_echoTarget (by omega)
  refine ⟨decodesAlways_store (by simp) hwf, htarget, by omega, by omega, _, exec_wrEcho addr data h,
    onlyIntWritten_internal _ s, fun a => ?_⟩
  rw [State.answer_intByte, State.intByte_setInt, State.intByte_setInt, ← ite_or]
  simp only [or_comm]

/-- Settles O41: one store at the address itself, so that the echo address keeps its byte. -/
theorem writeInternalMemory : Obligations.WriteInternalMemory := by
  intro addr data s h i hi hwf
  refine ⟨decodesAlways_store (List.mem_append_left _ hi) hwf, _, exec_wrInternalRow addr data h hi,
    onlyIntWritten_internal _ s, fun a => ?_⟩
  rw [State.answer_intByte, State.intByte_setInt]

end Sys2Proof.Machine
end

section
/-! SUPPORT. The timer: the fields of TMC by value (R160), a TICK on a Ready block, and TMC's idle bits, which no step of a
TICK reads; then the statements (R160, R163, R164). -/

namespace Sys2Proof.Machine

open Sys2Proof.Machine.Claims

/-! ## The fields of TMC -/

theorem toNat_frequencySelect (tmc : Byte) : (frequencySelect tmc).toNat = tmc.toNat % 4 :=
  BitVec.toNat_setWidth 2 tmc

theorem timerEnabled_iff (tmc : Byte) : timerEnabled tmc = true ↔ tmc.toNat / 4 % 2 = 1 := by
  simp [timerEnabled, BitVec.getLsbD, Nat.testBit_eq_decide_div_mod_eq]

section
variable {a b : Byte} (h : a.toNat % 8 = b.toNat % 8)
include h

theorem frequencySelect_congr : frequencySelect a = frequencySelect b := by
  apply BitVec.eq_of_toNat_eq
  rw [toNat_frequencySelect, toNat_frequencySelect]
  omega

theorem timerEnabled_congr : timerEnabled a = timerEnabled b := by
  rw [Bool.eq_iff_iff, timerEnabled_iff, timerEnabled_iff]
  omega

end

/-! ## WR_TMC and TICK on a Ready block -/

/-- WR_TMC (R143): the select of the old TMC decides whether the countdown is reloaded. -/
theorem exec_wrTmc {s : State} (h : s.Ready) (data : Byte) :
    exec (.wrTmc data) s = .next (({ s with
      tmc := data
      timerCounter :=
        if frequencySelect data = frequencySelect s.tmc then s.timerCounter
        else freqTable (frequencySelect data) } : State).answer .done) := by
  refine (whenRunning_ready h).trans ?_
  by_cases hsel : frequencySelect data = frequencySelect s.tmc
  · rw [if_pos hsel, if_pos hsel, respond_eq]
  · rw [if_neg hsel, if_neg hsel, respond_eq]

theorem exec_tick {s : State} (h : s.Ready) (cycles : BitVec 16) :
    exec (.tick cycles) s = .next ((tickStep cycles.toNat s).1.answer (.irq (tickStep cycles.toNat s).2)) :=
  whenRunning_ready h

theorem tickStep_disabled {s : State} (hoff : timerEnabled s.tmc = false) (n : Nat) :
    tickStep n s = (dividerStep n s, false) := by
  simp [tickStep, hoff]

theorem tickStep_enabled {s : State} (hon : timerEnabled s.tmc = true) (n : Nat) :
    tickStep n s = timerStep n (dividerStep n s) := by
  simp [tickStep, hon]

/-- The timer's step, where it is taken, leaves the divider's counter. -/
theorem tickStep_dividerCounter (n : Nat) (s : State) :
    (tickStep n s).1.dividerCounter = (dividerStep n s).dividerCounter := by
  cases hen : timerEnabled s.tmc with
  | false => rw [tickStep_disabled hen]
  | true => rw [tickStep_enabled hen, timerStep_dividerCounter]

theorem tickStep_div (n : Nat) (s : State) : (tickStep n s).1.div = (dividerStep n s).div := by
  cases hen : timerEnabled s.tmc with
  | false => rw [tickStep_disabled hen]
  | true => rw [tickStep_enabled hen, timerStep_div]

theorem onlyCountersWritten_tickStep (n : Nat) (r : Response) (s : State) :
    OnlyCountersWritten s ((tickStep n s).1.answer r) := by
  simp [OnlyCountersWritten]

/-! ## TMC replaced -/

/-- No admission check reads TMC. -/
theorem whenRunning_withTmc {s t : State} {j k : Result} {tmc : Byte}
    (hjk : j = .next t → k = .next { t with tmc := tmc }) (h : whenRunning s j = .next t) :
    whenRunning { s with tmc := tmc } k = .next { t with tmc := tmc } := by
  rcases whenRunning_cases h with ⟨hready, hj⟩ | ⟨f, hf, rfl⟩ | ⟨hf, hp, rfl⟩
  · have hready' : State.Ready { s with tmc := tmc } := hready
    exact (whenRunning_ready hready').trans (hjk hj)
  · exact whenUnfaulted_faulted hf
  · exact whenRunning_not hf hp

theorem dividerStep_withTmc (n : Nat) (tmc : Byte) (s : State) :
    dividerStep n { s with tmc := tmc } = { dividerStep n s with tmc := tmc } := by
  unfold dividerStep
  split <;> rfl

section
variable {tmc : Byte} {s : State} (h : tmc.toNat % 8 = s.tmc.toNat % 8)
include h

theorem timerStep_withTmc (n : Nat) :
    timerStep n { s with tmc := tmc } = ({ (timerStep n s).1 with tmc := tmc }, (timerStep n s).2) := by
  simp only [timerStep, frequencySelect_congr h]
  split
  · split <;> rfl
  · rfl

theorem tickStep_withTmc (n : Nat) :
    tickStep n { s with tmc := tmc } = ({ (tickStep n s).1 with tmc := tmc }, (tickStep n s).2) := by
  have hen : timerEnabled tmc = timerEnabled s.tmc := timerEnabled_congr h
  cases hs : timerEnabled s.tmc with
  | false => rw [tickStep_disabled hs, tickStep_disabled (hen.trans hs), dividerStep_withTmc]
  | true =>
    have hdiv : tmc.toNat % 8 = (dividerStep n s).tmc.toNat % 8 := by rwa [dividerStep_tmc]
    rw [tickStep_enabled hs, tickStep_enabled (hen.trans hs), dividerStep_withTmc, timerStep_withTmc hdiv]

theorem exec_tick_withTmc {t : State} {cycles : BitVec 16} (ht : exec (.tick cycles) s = .next t) :
    exec (.tick cycles) { s with tmc := tmc } = .next { t with tmc := tmc } := by
  refine whenRunning_withTmc (fun hrespond => ?_) ht
  cases hrespond
  rw [tickStep_withTmc h, respond_eq]
  rfl

/-- The datum overwrites TMC, once its select has been compared with TMC's (R143). -/
theorem exec_wrTmc_withTmc (hready : s.Ready) (data : Byte) :
    exec (.wrTmc data) { s with tmc := tmc } = exec (.wrTmc data) s := by
  have hready' : State.Ready { s with tmc := tmc } := hready
  rw [exec_wrTmc hready, exec_wrTmc hready', frequencySelect_congr h]

end

/-! ## The statements -/

/-- Settles O47: the two fields that a TICK and WR_TMC read of TMC are fixed by its value modulo 8. -/
theorem frequencyAndEnableOfTmc : Obligations.FrequencyAndEnableOfTmc :=
  ⟨rfl, rfl, rfl, rfl, toNat_frequencySelect, timerEnabled_iff, fun _ _ _ _ h ht => exec_tick_withTmc h ht,
    fun _ _ data _ hready h ht => (exec_wrTmc_withTmc h hready data).trans ht⟩

/-- Settles O49: the divider's fields after a TICK are those of `dividerStep_cases`, the timer enabled or not. -/
theorem tickDividerStep : Obligations.TickDividerStep := by
  intro cycles s h
  refine ⟨_, exec_tick h cycles, onlyCountersWritten_tickStep _ _ s, ?_⟩
  rw [State.answer_dividerCounter, State.answer_div, tickStep_dividerCounter, tickStep_div]
  rcases dividerStep_cases cycles.toNat s with ⟨hge, hstep⟩ | ⟨hlt, hstep⟩
  · rw [hstep]
    exact ⟨fun _ => ⟨rfl, BitVec.toNat_add s.div 1⟩, fun hlt => by omega⟩
  · rw [hstep]
    exact ⟨fun hge => by omega, fun _ => ⟨rfl, rfl⟩⟩

/-- Settles O50: with the timer enabled, the clauses are those of `timerStep_cases` on the state after DividerStep, which
leaves the timer's registers. -/
theorem tickTimerStep : Obligations.TickTimerStep := by
  intro cycles s h
  refine ⟨_, exec_tick h cycles, onlyCountersWritten_tickStep _ _ s, fun hoff => ?_, ?_⟩
  · rw [tickStep_disabled hoff]
    exact ⟨dividerStep_timerCounter _ s, dividerStep_tima _ s, rfl⟩
  rw [← forall_and]
  intro hon
  rw [tickStep_enabled hon]
  have hcases := timerStep_cases cycles.toNat (dividerStep cycles.toNat s)
  simp only [dividerStep_timerCounter, dividerStep_tima, dividerStep_tma, dividerStep_tmc] at hcases
  rcases hcases with ⟨hle, hfull, hstep⟩ | ⟨hle, hfull, hstep⟩ | ⟨hlt, hstep⟩
  · rw [hstep]
    exact ⟨fun hpos => by omega, fun _ => ⟨rfl, fun _ => ⟨rfl, rfl⟩, fun hne => absurd hfull hne⟩⟩
  · have hnext : (s.tima + 1).toNat = s.tima.toNat + 1 := by bv_omega
    rw [hstep]
    exact ⟨fun hpos => by omega, fun _ => ⟨rfl, fun heq => absurd heq hfull, fun _ => ⟨hnext, rfl⟩⟩⟩
  · rw [hstep]
    exact ⟨fun _ => ⟨rfl, rfl, rfl⟩, fun hle => by omega⟩

end Sys2Proof.Machine
end

section
/-! SUPPORT. The decoder over all words and requests: what each BUS and SYS frame is read as, in every bank mode and for the
reserved mode code, and what a request that decodes, or does not, says of itself (R80 to R88). -/

namespace Sys2Proof.Machine

open Sys2Proof.Machine.Claims

/-! ## The mode field: only the rows of ROM-range WRITEs compare it -/

/-- Keys that every row tests alike decode alike. -/
theorem decodeRows_congr {k k' : Nat} (d : Byte) (haddr : BitVec.ofNat 16 k = BitVec.ofNat 16 k') {rows : List Row}
    (h : ∀ r ∈ rows, (k &&& r.mask = r.pat ↔ k' &&& r.mask = r.pat)) : decodeRows k d rows = decodeRows k' d rows := by
  induction rows with
  | nil => rfl
  | cons r rows ih =>
    obtain ⟨hr, hrows⟩ := List.forall_mem_cons.1 h
    simp only [decodeRows, hr, haddr, ih hrows]

/-- Each row's mask leaves the mode field out, or the row is of WRITEs with `addr[15]` clear (R86). -/
theorem busRows_compare_mode_on_romWrites :
    ∀ r ∈ busRows, r.mask &&& 0x1FFFF = r.mask ∨ r.mask &&& 0x18000 = 0x18000 ∧ r.pat &&& 0x18000 = 0x10000 := by
  decide

/-- A key that is no ROM-range WRITE's decodes by its direction and address alone. -/
theorem decodeBus_congr {k k' : Nat} (d : Byte) (hk : k % 131072 = k' % 131072) (hrom : k / 32768 % 4 ≠ 2) :
    decodeBus k d = decodeBus k' d := by
  have haddr : BitVec.ofNat 16 k = BitVec.ofNat 16 k' := by
    apply BitVec.eq_of_toNat_eq
    rw [BitVec.toNat_ofNat, BitVec.toNat_ofNat]
    omega
  refine decodeRows_congr d haddr fun r hr => ?_
  rcases busRows_compare_mode_on_romWrites r hr with hmask | ⟨hmask, hpat⟩
  · have hlow : k &&& 0x1FFFF = k' &&& 0x1FFFF := by rw [and_1FFFF, and_1FFFF, hk]
    rw [← hmask, Nat.and_comm r.mask, ← Nat.and_assoc, ← Nat.and_assoc, hlow]
  · have hnot {n : Nat} (hn : n / 32768 % 4 ≠ 2) : ¬ n &&& r.mask = r.pat := by
      intro htake
      have hfield : n &&& 0x18000 = 0x10000 := by rw [← hpat, ← htake, Nat.and_assoc, hmask]
      rw [and_18000] at hfield
      omega
    exact iff_of_false (hnot hrom) (hnot (by omega))

/-- Rows 1 to 9 take every READ, and none of them uses the data byte (R81). -/
theorem decodeBus_read_datum {k : Nat} (hk : k / 65536 % 2 = 0) (d d' : Byte) : decodeBus k d = decodeBus k d' := by
  rw [decodeBus_chain, decodeBus_chain]
  simp only [hk, if_true]

theorem decode_readFrame {a : Addr} {i : Instr} (h : DecodesAlways (.read a.toNat) i) (mode : BitVec 2) (d : Byte) :
    decode (busFrame mode .read a d) = .ok i := by
  have ha := a.isLt
  have hkey := busKey_read mode a
  have hkey' : busKey BankMode.none.code .read a = 0 * 0x20000 + a.toNat := busKey_read 0 a
  calc decode (busFrame mode .read a d)
      = decodeBus (busKey mode .read a) d := decode_busFrame mode .read a d
    _ = decodeBus (busKey mode .read a) 0 := decodeBus_read_datum (by omega) d 0
    _ = decodeBus (busKey BankMode.none.code .read a) 0 := decodeBus_congr 0 (by omega) (by omega)
    _ = .ok i := by rw [← decodeRequest_read_toNat, h]

theorem decode_writeFrame_high {a : Addr} {d : Byte} {i : Instr} (ha : 0x8000 ≤ a.toNat)
    (h : DecodesAlways (.write a.toNat d.toNat) i) (mode : BitVec 2) : decode (busFrame mode .write a d) = .ok i := by
  have ha' := a.isLt
  have hkey := busKey_write mode a
  have hkey' : busKey BankMode.none.code .write a = 0 * 0x20000 + 0x10000 + a.toNat := busKey_write 0 a
  calc decode (busFrame mode .write a d)
      = decodeBus (busKey mode .write a) d := decode_busFrame mode .write a d
    _ = decodeBus (busKey BankMode.none.code .write a) d := decodeBus_congr d (by omega) (by omega)
    _ = .ok i := by rw [← decodeRequest_write_toNat, h]

/-- A WRITE's frame with the mode code of a cartridge is the WRITE's on that cartridge (R81). -/
theorem decode_writeFrame (m : BankMode) (a : Addr) (d : Byte) :
    decode (busFrame m.code .write a d) = decodeRequest m (.write a.toNat d.toNat) := by
  rw [decode_busFrame, decodeRequest_write_toNat]

/-- The reserved mode code with a ROM-range WRITE is in no row (R88). -/
theorem decode_writeFrame_reserved {a : Addr} (ha : a.toNat < 0x8000) (d : Byte) :
    decode (busFrame 3 .write a d) = .error .reserved := by
  have hkey : busKey 3 .write a = 3 * 0x20000 + 0x10000 + a.toNat := busKey_write 3 a
  rw [decode_busFrame, decodeBus_romWrite (by omega)]
  iterate 9 rw [if_neg (by omega)]

/-! ## One instruction for each READ and each WRITE -/

/-- Rows 10 to 13, of one address each, in every bank mode. -/
theorem decodesAlways_timerWrite {a : Addr} {d : Byte} {i : Instr}
    (hi : (a.toNat, i) ∈ [(0xFF04, Instr.wrDiv d), (0xFF05, .wrTima d), (0xFF06, .wrTma d), (0xFF07, .wrTmc d)]) :
    DecodesAlways (.write a.toNat d.toNat) i := by
  intro m
  have hkey := busKey_write m.code a
  rw [decodeRequest_write_toNat, decodeBus_chain, addr_of_busKey, hkey]
  simp only [List.mem_cons, List.not_mem_nil, or_false, Prod.mk.injEq] at hi
  rcases hi with ⟨ha, rfl⟩ | ⟨ha, rfl⟩ | ⟨ha, rfl⟩ | ⟨ha, rfl⟩
  all_goals
    repeat rw [if_neg (by omega)]
    exact if_pos (by omega)

/-- R130's ranges leave no address out, and each one's row takes it. -/
theorem exists_read (a : Addr) :
    ∃ i, i.wf = true ∧ ReadCase a i ∧ DecodesAlways (.read a.toNat) i ∧ ∀ mode, encode mode i = busFrame mode .read a 0 := by
  have ha := a.isLt
  simp only [ReadCase]
  split_ifs
  · have hwf : (Instr.rdRom0 a).wf = true := Addr.within_iff.2 (by omega)
    exact ⟨_, hwf, rfl, decodesAlways_read (by simp) hwf, fun _ => rfl⟩
  · have hwf : (Instr.rdRomx a).wf = true := Addr.within_iff.2 (by omega)
    exact ⟨_, hwf, rfl, decodesAlways_read (by simp) hwf, fun _ => rfl⟩
  · have hwf : (Instr.rdExtram a).wf = true := Addr.within_iff.2 (by omega)
    exact ⟨_, hwf, rfl, decodesAlways_read (by simp) hwf, fun _ => rfl⟩
  · have hwf : (Instr.rdUnusable a).wf = true := Addr.within_iff.2 (by omega)
    exact ⟨_, hwf, rfl, decodesAlways_read (by simp) hwf, fun _ => rfl⟩
  · have hwf : (Instr.rdTimer a).wf = true := Addr.within_iff.2 (by omega)
    exact ⟨_, hwf, rfl, decodesAlways_read (by simp) hwf, fun _ => rfl⟩
  · have hrow : (Instr.rdInternal a).wf = true ∨ (Instr.rdInternalHigh a).wf = true ∨
        (Instr.rdInternalFe80 a).wf = true ∨ (Instr.rdInternalFe00 a).wf = true := by
      simp only [Instr.wf, Addr.highPage, Bool.or_eq_true, Addr.within_iff]; omega
    rcases hrow with hwf | hwf | hwf | hwf <;>
      exact ⟨_, hwf, by simp, decodesAlways_read (by simp) hwf, fun _ => rfl⟩

/-- R131's ranges from 0x8000 leave no address out, and each one's row takes it, in every bank mode. -/
theorem exists_writeHigh {a : Addr} (ha : 0x8000 ≤ a.toNat) (d : Byte) :
    ∃ i, i.wf = true ∧ (∀ m, WriteCase m a d i) ∧ DecodesAlways (.write a.toNat d.toNat) i ∧
      ∀ mode, encode mode i = busFrame mode .write a d := by
  have hlow : ¬ a.toNat < 0x8000 := by omega
  have ha' := a.isLt
  have haddr {n : Nat} (h : a.toNat = n) : BitVec.ofNat 16 n = a := by
    rw [← h, BitVec.ofNat_toNat, BitVec.setWidth_eq]
  simp only [WriteCase, hlow, if_false]
  split_ifs with hext hecho hdiv htmc hunus htima htma
  · have hwf : (Instr.wrExtram a d).wf = true := Addr.within_iff.2 (by omega)
    exact ⟨_, hwf, fun _ => rfl, decodesAlways_store (by simp) hwf, fun _ => rfl⟩
  · have hwf : (Instr.wrEcho a d).wf = true := Addr.within_iff.2 (by omega)
    exact ⟨_, hwf, fun _ => rfl, decodesAlways_store (by simp) hwf, fun _ => rfl⟩
  · exact ⟨.wrDiv d, rfl, fun _ => rfl, decodesAlways_timerWrite (by simp [hdiv]), fun mode => by rw [← haddr hdiv]; rfl⟩
  · exact ⟨.wrTmc d, rfl, fun _ => rfl, decodesAlways_timerWrite (by simp [htmc]), fun mode => by rw [← haddr htmc]; rfl⟩
  · have hwf : (Instr.wrUnusable a d).wf = true := Addr.within_iff.2 (by omega)
    exact ⟨_, hwf, fun _ => rfl, decode_wrUnusable hwf, fun _ => rfl⟩
  · exact ⟨.wrTima d, rfl, fun _ => rfl, decodesAlways_timerWrite (by simp [htima]), fun mode => by rw [← haddr htima]; rfl⟩
  · exact ⟨.wrTma d, rfl, fun _ => rfl, decodesAlways_timerWrite (by simp [htma]), fun mode => by rw [← haddr htma]; rfl⟩
  · have hrow : (Instr.wrInternal a d).wf = true ∨ (Instr.wrInternalHigh a d).wf = true ∨
        (Instr.wrInternalFe80 a d).wf = true ∨ (Instr.wrInternalFe00 a d).wf = true := by
      simp only [Instr.wf, Addr.highPage, Bool.or_eq_true, Addr.within_iff]; omega
    rcases hrow with hwf | hwf | hwf | hwf <;>
      exact ⟨_, hwf, fun _ => by simp, decodesAlways_store (by simp) hwf, fun _ => rfl⟩

/-- R110's commands are well formed and their words carry their own mode code. -/
theorem command_wf_encode {m : BankMode} {a : Addr} {d : Byte} {i : Instr} (ha : a.toNat < 0x8000)
    (hi : CommandCase m a d i) : i.wf = true ∧ ∀ mode, encode mode i = busFrame m.code .write a d := by
  cases m with
  | none =>
    cases hi
    exact ⟨Addr.within_iff.2 (by omega), fun _ => rfl⟩
  | mbc1 =>
    simp only [CommandCase] at hi
    split_ifs at hi
    all_goals
      cases hi
      exact ⟨Addr.within_iff.2 (by omega), fun _ => rfl⟩
  | mbc2 =>
    simp only [CommandCase] at hi
    split_ifs at hi with hlow hbit
    all_goals cases hi
    · refine ⟨?_, fun _ => rfl⟩
      simp only [Instr.wf, addr_bit4, Bool.and_eq_true, Bool.not_eq_true', decide_eq_false_iff_not, Addr.within_iff]
      omega
    · refine ⟨?_, fun _ => rfl⟩
      simp only [Instr.wf, addr_bit4, Bool.and_eq_true, decide_eq_true_eq, Addr.within_iff]
      omega
    all_goals exact ⟨Addr.within_iff.2 (by omega), fun _ => rfl⟩

/-- Settles O4: `exists_read`, of which `formFrame` drops the datum. -/
theorem readDispatchIsByRange : Obligations.ReadDispatchIsByRange := by
  intro m a data
  obtain ⟨i, hwf, hcase, hdecode, -⟩ := exists_read a
  exact ⟨i, hdecode m, hwf, hcase⟩

/-- Settles O5: R110's commands below 0x8000, R131's other ranges from there. -/
theorem writeDispatchIsByRange : Obligations.WriteDispatchIsByRange := by
  intro m a d
  by_cases ha : a.toNat < 0x8000
  · obtain ⟨i, hcase, -⟩ := exists_commandCase m a d
    obtain ⟨hwf, -⟩ := command_wf_encode ha hcase
    refine ⟨i, decodeRequest_command ha hcase, hwf, ?_⟩
    rwa [WriteCase, if_pos ha]
  · obtain ⟨i, hwf, hcase, hdecode, -⟩ := exists_writeHigh (Nat.le_of_not_lt ha) d
    exact ⟨i, hdecode m, hwf, hcase m⟩

/-! ## Frames -/

/-- Settles O2: a row that compares no mode field decodes alike in every mode, and a command's words carry its own mode. -/
theorem decodeOfEncode : Obligations.DecodeOfEncode := by
  intro mode i hwf
  cases i with
  | rdTimer a | rdInternalHigh a | rdInternalFe80 a | rdInternalFe00 a | rdUnusable a | rdRom0 a | rdRomx a | rdExtram a
  | rdInternal a => exact decode_readFrame (decodesAlways_read (by simp) hwf) mode 0
  | wrDiv d | wrTima d | wrTma d | wrTmc d =>
    exact decode_writeFrame_high (by simp) (decodesAlways_timerWrite (by simp)) mode
  | wrInternalHigh a d | wrInternalFe80 a d | wrInternalFe00 a d | wrEcho a d | wrExtram a d | wrInternal a d =>
    refine decode_writeFrame_high ?_ (decodesAlways_store (by simp) hwf) mode
    simp only [Instr.wf, Addr.highPage, Bool.or_eq_true, Addr.within_iff] at hwf
    omega
  | wrUnusable a d =>
    refine decode_writeFrame_high ?_ (decode_wrUnusable hwf) mode
    have hwithin := Addr.within_iff.1 hwf
    omega
  | wrMbc1Ramen a d => exact (decode_writeFrame .mbc1 a d).trans (decode_wrMbc1Ramen hwf)
  | wrMbc1Romlo a d => exact (decode_writeFrame .mbc1 a d).trans (decode_wrMbc1Romlo hwf)
  | wrMbc1Hi a d => exact (decode_writeFrame .mbc1 a d).trans (decode_wrMbc1Hi hwf)
  | wrMbc1Mode a d => exact (decode_writeFrame .mbc1 a d).trans (decode_wrMbc1Mode hwf)
  | wrMbc2Ramen a d => exact (decode_writeFrame .mbc2 a d).trans (decode_wrMbc2Ramen hwf)
  | wrMbc2RamenIgn a d => exact (decode_writeFrame .mbc2 a d).trans (decode_wrMbc2RamenIgn hwf)
  | wrMbc2Romlo a d => exact (decode_writeFrame .mbc2 a d).trans (decode_wrMbc2Romlo hwf)
  | wrMbc2Nop a d => exact (decode_writeFrame .mbc2 a d).trans (decode_wrMbc2Nop hwf)
  | wrNoneNop a d => exact (decode_writeFrame .none a d).trans (decode_wrNoneNop hwf)
  | load source => rw [encode, decode_sysFrame]; rfl
  | reset => rw [encode, decode_sysFrame]; rfl
  | tick cycles => rw [encode, decode_sysFrame]; rfl

theorem bankMode_code_or_reserved (mode : BitVec 2) : mode = 3 ∨ ∃ m : BankMode, mode = m.code := by
  have key : ∀ x : BitVec 2, x = 3 ∨ x = BankMode.none.code ∨ x = BankMode.mbc1.code ∨ x = BankMode.mbc2.code := by decide
  rcases key mode with h | h | h | h
  · exact .inl h
  · exact .inr ⟨_, h⟩
  · exact .inr ⟨_, h⟩
  · exact .inr ⟨_, h⟩

theorem bankMode_code_ne_reserved (m : BankMode) : m.code ≠ 3 := by
  cases m <;> decide

/-- Every BUS frame is the reserved one, or decodes to a well-formed instruction whose words it is. -/
theorem decode_busFrame_cases (mode : BitVec 2) (dir : Dir) (a : Addr) (d : Byte) :
    (mode = 3 ∧ dir = .write ∧ a.toNat < 0x8000 ∧ decode (busFrame mode dir a d) = .error .reserved) ∨
      ¬ (mode = 3 ∧ dir = .write ∧ a.toNat < 0x8000) ∧
        ∃ i, decode (busFrame mode dir a d) = .ok i ∧ i.wf = true ∧
          encode mode i = busFrame mode dir a (if dir = .read then 0 else d) := by
  cases dir with
  | read =>
    obtain ⟨i, hwf, -, hdecode, hencode⟩ := exists_read a
    exact .inr ⟨by simp, i, decode_readFrame hdecode mode d, hwf, hencode mode⟩
  | write =>
    by_cases ha : a.toNat < 0x8000
    · obtain rfl | ⟨m, rfl⟩ := bankMode_code_or_reserved mode
      · exact .inl ⟨rfl, rfl, ha, decode_writeFrame_reserved ha d⟩
      · obtain ⟨i, hcase, -⟩ := exists_commandCase m a d
        obtain ⟨hwf, hencode⟩ := command_wf_encode ha hcase
        refine .inr ⟨fun h => bankMode_code_ne_reserved m h.1, i, ?_, hwf, hencode _⟩
        rw [decode_writeFrame, decodeRequest_command ha hcase]
    · obtain ⟨i, hwf, -, hdecode, hencode⟩ := exists_writeHigh (Nat.le_of_not_lt ha) d
      exact .inr ⟨fun ⟨_, _, h⟩ => ha h, i, decode_writeFrame_high (Nat.le_of_not_lt ha) hdecode mode, hwf, hencode mode⟩

/-- Settles O3: `decode_busFrame_cases`, and the three rows of `decode_sysFrame`. -/
theorem encodeOfDecode : Obligations.EncodeOfDecode := by
  constructor
  · intro mode dir addr data i hi
    obtain ⟨-, -, -, herror⟩ | ⟨-, j, hj, hwf, hencode⟩ := decode_busFrame_cases mode dir addr data
    · cases herror.symm.trans hi
    · cases hj.symm.trans hi
      exact ⟨hwf, hencode⟩
  · intro kind operand source i hi
    rw [decode_sysFrame] at hi
    split_ifs at hi with hload hzero hreset hzero htick
    all_goals
      cases hi
      subst_vars
      exact ⟨rfl, rfl⟩

/-- Settles O57: `decode_busFrame_cases`, and the branches of `decode_sysFrame`. -/
theorem reservedWordsAreExactlyThese : Obligations.ReservedWordsAreExactlyThese := by
  constructor
  · intro mode dir addr data e
    obtain ⟨hmode, hdir, haddr, herror⟩ | ⟨hnot, j, hj, -⟩ := decode_busFrame_cases mode dir addr data
    · rw [herror, Except.error.injEq]
      exact ⟨fun h => ⟨h.symm, hmode, hdir, haddr⟩, fun h => h.1.symm⟩
    · rw [hj]
      exact iff_of_false (by simp) (fun h => hnot h.2)
  · intro kind operand source e
    rw [decode_sysFrame]
    have hkind : kind = 0 ∨ kind = 1 ∨ kind = 2 ∨ kind = 3 := by revert kind; decide
    rcases hkind with rfl | rfl | rfl | rfl
    · by_cases ho : operand = 0#16 <;> simp [ho, eq_comm (a := DecodeError.reserved)]
    · by_cases ho : operand = 0#16 <;> simp [ho, eq_comm (a := DecodeError.reserved)]
    · simp
    · simp [eq_comm (a := DecodeError.reserved)]

end Sys2Proof.Machine
end

section
/-! SUPPORT. What a request that decodes, or that does not, says of itself: its operands, its bank mode and the kind of its
instruction (R81, R84, R88). -/

namespace Sys2Proof.Machine

open Sys2Proof.Machine.Claims

/-! ## Operands -/

theorem exists_addr {n : Nat} (h : n ≤ 0xFFFF) : ∃ a : Addr, n = a.toNat :=
  ⟨BitVec.ofNat 16 n, by rw [BitVec.toNat_ofNat]; omega⟩

theorem exists_byte {n : Nat} (h : n ≤ 0xFF) : ∃ d : Byte, n = d.toNat :=
  ⟨BitVec.ofNat 8 n, by rw [BitVec.toNat_ofNat]; omega⟩

section
variable {m : BankMode} {addr data operand : Nat} {kind : BitVec 2} {source : Option (List Byte)} {i : Instr}

theorem decodeRequest_read_ok (h : decodeRequest m (.bus .read addr data) = .ok i) :
    ∃ a : Addr, addr = a.toNat ∧ i.wf = true ∧ ReadCase a i := by
  by_cases haddr : addr ≤ 0xFFFF
  · obtain ⟨a, rfl⟩ := exists_addr haddr
    obtain ⟨j, hj, hwf, hcase⟩ := readDispatchIsByRange m a data
    cases hj.symm.trans h
    exact ⟨a, rfl, hwf, hcase⟩
  · simp [decodeRequest, formFrame, haddr] at h

theorem decodeRequest_write_ok (h : decodeRequest m (.write addr data) = .ok i) :
    ∃ (a : Addr) (d : Byte), addr = a.toNat ∧ data = d.toNat ∧ i.wf = true ∧ WriteCase m a d i := by
  by_cases hdata : data ≤ 0xFF
  · by_cases haddr : addr ≤ 0xFFFF
    · obtain ⟨a, rfl⟩ := exists_addr haddr
      obtain ⟨d, rfl⟩ := exists_byte hdata
      obtain ⟨j, hj, hwf, hcase⟩ := writeDispatchIsByRange m a d
      cases hj.symm.trans h
      exact ⟨a, d, rfl, rfl, hwf, hcase⟩
    · simp [decodeRequest, formFrame, hdata, haddr] at h
  · simp [decodeRequest, formFrame, hdata] at h

/-- A SYS request within 16 bits decodes by its kind and its operand (R84). -/
theorem decodeRequest_sys (m : BankMode) (kind : BitVec 2) (operand : BitVec 16) (source : Option (List Byte)) :
    decodeRequest m (.sys kind operand.toNat source) = decode (sysFrame kind operand source) := by
  have hoperand : operand.toNat ≤ Config.maxTick := by have := operand.isLt; show _ ≤ 0xFFFF; omega
  simp only [decodeRequest, formFrame, hoperand, if_true, BitVec.ofNat_toNat, BitVec.setWidth_eq]

theorem decodeRequest_sys_ok (h : decodeRequest m (.sys kind operand source) = .ok i) :
    (kind = 0 ∧ operand = 0 ∧ i = .load source) ∨ (kind = 1 ∧ operand = 0 ∧ i = .reset) ∨
      (kind = 2 ∧ ∃ cycles, i = .tick cycles) := by
  by_cases hoperand : operand ≤ 0xFFFF
  · obtain ⟨o, rfl⟩ := exists_addr hoperand
    rw [decodeRequest_sys, decode_sysFrame] at h
    split_ifs at h with hload hzero hreset hzero htick
    · cases h; exact .inl ⟨hload, by simp [hzero], rfl⟩
    · cases h; exact .inr (.inl ⟨hreset, by simp [hzero], rfl⟩)
    · cases h; exact .inr (.inr ⟨htick, _, rfl⟩)
  · have hmax : ¬ operand ≤ Config.maxTick := hoperand
    simp only [decodeRequest, formFrame, hmax, if_false] at h
    split_ifs at h

theorem decodeRequest_wf {r : Request} (h : decodeRequest m r = .ok i) : i.wf = true := by
  cases r with
  | bus dir addr data =>
    cases dir with
    | read =>
      obtain ⟨-, -, hwf, -⟩ := decodeRequest_read_ok h
      exact hwf
    | write =>
      obtain ⟨-, -, -, -, hwf, -⟩ := decodeRequest_write_ok h
      exact hwf
  | sys kind operand source =>
    obtain ⟨-, -, rfl⟩ | ⟨-, -, rfl⟩ | ⟨-, c, rfl⟩ := decodeRequest_sys_ok h <;> rfl

/-! ## Requests without an instruction -/

theorem decodeRows_error {k : Nat} {d : Byte} {rows : List Row} {e : DecodeError} (h : decodeRows k d rows = .error e) :
    e = .reserved := by
  induction rows with
  | nil => cases h; rfl
  | cons r rows ih =>
    simp only [decodeRows] at h
    split at h
    · cases h
    · exact ih h

theorem decode_error {f : Frame} {e : DecodeError} (h : decode f = .error e) : e = .reserved := by
  cases f with
  | bus tw => exact decodeRows_error h
  | sys s source =>
    simp only [decode, decodeSys] at h
    split_ifs at h <;> cases h <;> rfl

theorem decodeRequest_badAddress {r : Request} {x : Nat} (h : decodeRequest m r = .error (.badAddress x)) :
    ∃ dir data, r = .bus dir x data ∧ 0xFFFF < x := by
  have hdecode {f : Frame} : decode f ≠ .error (.badAddress x) := fun hf => by cases decode_error hf
  cases r with
  | bus dir addr data =>
    cases dir with
    | read =>
      by_cases haddr : addr ≤ 0xFFFF
      · simp only [decodeRequest, formFrame, haddr, if_true] at h
        exact absurd h hdecode
      · simp only [decodeRequest, formFrame, haddr, if_false] at h
        cases h
        exact ⟨.read, data, rfl, by omega⟩
    | write =>
      by_cases hdata : data ≤ 0xFF
      · by_cases haddr : addr ≤ 0xFFFF
        · simp only [decodeRequest, formFrame, hdata, haddr, if_true] at h
          exact absurd h hdecode
        · simp only [decodeRequest, formFrame, hdata, haddr, if_true, if_false] at h
          cases h
          exact ⟨.write, data, rfl, by omega⟩
      · simp [decodeRequest, formFrame, hdata] at h
  | sys kind operand source =>
    by_cases hmax : operand ≤ Config.maxTick
    · simp only [decodeRequest, formFrame, hmax, if_true] at h
      exact absurd h hdecode
    · simp only [decodeRequest, formFrame, hmax, if_false] at h
      split_ifs at h <;> cases h

theorem decodeRequest_sys_reserved {operand : Nat} (m : BankMode) (source : Option (List Byte))
    (h : kind = 3 ∨ (kind = 0 ∨ kind = 1) ∧ operand ≠ 0) : decodeRequest m (.sys kind operand source) = .error .reserved := by
  by_cases hoperand : operand ≤ 0xFFFF
  · obtain ⟨o, rfl⟩ := exists_addr hoperand
    rw [decodeRequest_sys]
    refine (reservedWordsAreExactlyThese.2 kind o source .reserved).2 ⟨rfl, h.imp_right ?_⟩
    exact fun ⟨hk, ho⟩ => ⟨hk, fun hzero => ho (by simp [hzero])⟩
  · have hmax : ¬ operand ≤ Config.maxTick := hoperand
    have hkind : kind ≠ 2 := by rintro rfl; revert h; simp
    simp only [decodeRequest, formFrame, hmax, hkind, if_false]

end

/-! ## The kind of the instruction -/

/-- The instruction is a READ or a WRITE. -/
def IsBus : Instr → Prop
  | .load _ | .reset | .tick _ => False
  | _ => True

theorem decodeRows_isBus {k : Nat} {d : Byte} {i : Instr} {rows : List Row} (hrows : ∀ r ∈ rows, ∀ a d, IsBus (r.make a d))
    (h : decodeRows k d rows = .ok i) : IsBus i := by
  induction rows with
  | nil => cases h
  | cons r rows ih =>
    obtain ⟨hr, hrest⟩ := List.forall_mem_cons.1 hrows
    simp only [decodeRows] at h
    split at h
    · cases h; exact hr _ _
    · exact ih hrest h

theorem decodeRequest_bus_isBus {m : BankMode} {dir : Dir} {addr data : Nat} {i : Instr}
    (h : decodeRequest m (.bus dir addr data) = .ok i) : IsBus i := by
  have hrows : ∀ r ∈ busRows, ∀ a d, IsBus (r.make a d) := by
    simp [busRows, readRows, writeRows, commandRows, IsBus]
  cases dir with
  | read =>
    obtain ⟨a, rfl, -⟩ := decodeRequest_read_ok h
    exact decodeRows_isBus hrows ((decodeRequest_read_toNat m a).symm.trans h)
  | write =>
    obtain ⟨a, d, rfl, rfl, -⟩ := decodeRequest_write_ok h
    exact decodeRows_isBus hrows ((decodeRequest_write_toNat m a d).symm.trans h)

/-- The cartridge's bank mode is the one whose command the instruction is, where it is a command (R110). -/
def FitsMode (m : BankMode) : Instr → Prop
  | .wrMbc1Ramen _ _ | .wrMbc1Romlo _ _ | .wrMbc1Hi _ _ | .wrMbc1Mode _ _ => m = .mbc1
  | .wrMbc2Ramen _ _ | .wrMbc2RamenIgn _ _ | .wrMbc2Romlo _ _ | .wrMbc2Nop _ _ => m = .mbc2
  | .wrNoneNop _ _ => m = .none
  | _ => True

theorem fitsMode_of_commandCase {m : BankMode} {a : Addr} {d : Byte} {i : Instr} (h : CommandCase m a d i) :
    FitsMode m i := by
  cases m with
  | none => cases h; rfl
  | mbc1 | mbc2 =>
    simp only [CommandCase] at h
    split_ifs at h <;> cases h <;> rfl

theorem fitsMode_of_writeCase {m : BankMode} {a : Addr} {d : Byte} {i : Instr} (h : WriteCase m a d i) : FitsMode m i := by
  by_cases ha : a.toNat < 0x8000
  · rw [WriteCase, if_pos ha] at h
    exact fitsMode_of_commandCase h
  · simp only [WriteCase, ha, if_false] at h
    split_ifs at h
    case neg => rcases h with rfl | rfl | rfl | rfl <;> trivial
    all_goals cases h; trivial

theorem fitsMode_of_readCase {m : BankMode} {a : Addr} {i : Instr} (h : ReadCase a i) : FitsMode m i := by
  simp only [ReadCase] at h
  split_ifs at h
  case neg => rcases h with rfl | rfl | rfl | rfl <;> trivial
  all_goals cases h; trivial

theorem decodeRequest_fitsMode {m : BankMode} {r : Request} {i : Instr} (h : decodeRequest m r = .ok i) : FitsMode m i := by
  cases r with
  | bus dir addr data =>
    cases dir with
    | read =>
      obtain ⟨a, -, -, hcase⟩ := decodeRequest_read_ok h
      exact fitsMode_of_readCase hcase
    | write =>
      obtain ⟨a, d, -, -, -, hcase⟩ := decodeRequest_write_ok h
      exact fitsMode_of_writeCase hcase
  | sys kind operand source =>
    obtain ⟨-, -, rfl⟩ | ⟨-, -, rfl⟩ | ⟨-, c, rfl⟩ := decodeRequest_sys_ok h <;> trivial

/-! ## The statements -/

/-- Settles O1: each word decodes by evaluation. -/
theorem writtenOutWordsDecode : Obligations.WrittenOutWordsDecode :=
  ⟨rfl, rfl, rfl, rfl, rfl, rfl, rfl, rfl, rfl, rfl, rfl, rfl, rfl⟩

/-- Settles O6: `step_ok`, with the well-formedness of what decodes. -/
theorem stepRunsTheDecodedRequest : Obligations.StepRunsTheDecodedRequest :=
  fun _ _ _ _ hinbox hdecode => ⟨decodeRequest_wf hdecode, step_ok hinbox hdecode⟩

/-- Settles O7. -/
theorem noRequestNoChange : Obligations.NoRequestNoChange := fun _ => step_nil

end Sys2Proof.Machine
end

section
/-! SUPPORT. Admission: every request is answered; out of its phase, on a faulted block or without an instruction it is
refused or faults, and nothing else changes (R13, R38, R181 to R184). -/

namespace Sys2Proof.Machine

open Sys2Proof.Machine.Claims

/-! ## Every request is answered -/

/-- `k` leads to a next state, with the port of `s` and a response at it. -/
def Answers (s : State) (k : Result) : Prop := ∃ t, k = .next t ∧ t.inbox = s.inbox ∧ t.response.isSome = true

section
variable {s : State} {j k : Result}

theorem answers_respond {t : State} (r : Response) (h : t.inbox = s.inbox) : Answers s (respond r t) := ⟨_, rfl, h, rfl⟩

theorem answers_refuse (w : RefuseReason) : Answers s (refuse w s) := ⟨_, rfl, rfl, rfl⟩

theorem answers_raiseFault (f : FaultRecord) : Answers s (raiseFault f s) := ⟨_, rfl, rfl, rfl⟩

theorem answers_ite {p : Prop} [Decidable p] (hj : Answers s j) (hk : Answers s k) : Answers s (if p then j else k) := by
  split
  · exact hj
  · exact hk

theorem answers_whenUnfaulted (hk : Answers s k) : Answers s (whenUnfaulted s k) := answers_ite (answers_refuse _) hk

theorem answers_whenRunning (hk : Answers s k) : Answers s (whenRunning s k) :=
  answers_whenUnfaulted (answers_ite hk (answers_refuse _))

theorem answers_whenPhase (p : Phase) (hk : Answers s k) : Answers s (whenPhase p s k) :=
  answers_whenUnfaulted (answers_ite hk (answers_refuse _))

theorem answers_rejectRequest (r : Request) (e : DecodeError) : Answers s (rejectRequest r e s) := by
  have hrejected : Answers s (rejected e s) := by
    cases e with
    | reserved | dataWidth | tickRange => exact answers_refuse _
    | badAddress a => exact answers_raiseFault _
  cases r with
  | bus dir addr data => exact answers_whenRunning hrejected
  | sys kind operand source =>
    exact answers_ite (answers_whenPhase _ hrejected) <| answers_ite (answers_whenPhase _ hrejected) <|
      answers_ite (answers_whenRunning hrejected) (answers_whenUnfaulted hrejected)

theorem answers_exec (i : Instr) (s : State) : Answers s (exec i s) := by
  cases i with
  | load source =>
    refine answers_whenPhase _ ?_
    cases source with
    | none => exact answers_raiseFault _
    | some src => exact answers_ite (answers_respond _ rfl) (answers_refuse _)
  | reset => exact answers_whenPhase _ (answers_respond _ rfl)
  | rdRom0 _ | rdRomx _ => exact answers_whenRunning (answers_ite (answers_respond _ rfl) (answers_raiseFault _))
  | rdExtram _ | wrExtram _ _ | wrMbc1Hi _ _ | wrMbc1Mode _ _ | wrTmc _ =>
    exact answers_whenRunning (answers_ite (answers_respond _ rfl) (answers_respond _ rfl))
  | wrMbc1Ramen _ d | wrMbc2Ramen _ d => exact answers_whenRunning (answers_respond _ (ramEnable_inbox d s))
  | tick cycles => exact answers_whenRunning (answers_respond _ (tickStep_inbox _ s))
  | _ => exact answers_whenRunning (answers_respond _ rfl)

end

/-- Settles O8: both ends of `step_cases` at a request leave an answer. -/
theorem everyRequestIsAnswered : Obligations.EveryRequestIsAnswered := by
  intro s r rest hinbox
  cases hdecode : decodeRequest s.cartBankMode r with
  | ok i => rw [step_ok hinbox hdecode]; exact answers_exec i { s with inbox := rest }
  | error e => rw [step_error hinbox hdecode]; exact answers_rejectRequest (s := { s with inbox := rest }) r e

/-! ## A faulted block -/

section
variable {s : State} {f : FaultRecord} (hf : s.fault = some f)
include hf

theorem exec_faulted (i : Instr) : exec i s = .next (s.recordRefusal .faulted) := by
  cases i with
  | _ => exact whenUnfaulted_faulted hf

theorem rejectRequest_faulted (r : Request) (e : DecodeError) :
    rejectRequest r e s = .next (s.recordRefusal .faulted) := by
  cases r with
  | bus dir addr data => exact whenUnfaulted_faulted hf
  | sys kind operand source =>
    simp only [rejectRequest]
    split_ifs <;> exact whenUnfaulted_faulted hf

theorem step_faulted {r : Request} {rest : List Request} (hinbox : s.inbox = r :: rest) :
    step s = .next (({ s with inbox := rest } : State).recordRefusal .faulted) := by
  cases hdecode : decodeRequest s.cartBankMode r with
  | ok i => rw [step_ok hinbox hdecode]; exact exec_faulted (s := { s with inbox := rest }) hf i
  | error e => rw [step_error hinbox hdecode]; exact rejectRequest_faulted (s := { s with inbox := rest }) hf r e

end

/-- Settles O11: by induction on the run, each of whose steps is `step_faulted`. -/
theorem faultEndsTheSession : Obligations.FaultEndsTheSession := by
  intro n
  induction n with
  | zero =>
    intro s t f _ _ hrun
    cases hrun
    simp
  | succ n ih =>
    intro s t f hf hlen hrun
    obtain ⟨r, rest, hinbox⟩ : ∃ r rest, s.inbox = r :: rest := List.exists_cons_of_length_pos (by omega)
    rw [run_succ (step_faulted hf hinbox)] at hrun
    rw [hinbox, List.length_cons, Nat.add_le_add_iff_right] at hlen
    have ht := ih (({ s with inbox := rest } : State).recordRefusal .faulted) t f hf hlen hrun
    rw [ht, hinbox]
    by_cases hn : n = 0 <;> simp [State.recordRefusal, hn, Nat.add_comm, Nat.add_left_comm]

/-! ## Out of phase -/

theorem exec_eq_whenRunning {i : Instr} (hload : ∀ src, i ≠ .load src) (hreset : i ≠ .reset) (s : State) :
    ∃ k, exec i s = whenRunning s k := by
  cases i with
  | load src => exact absurd rfl (hload src)
  | reset => exact absurd rfl hreset
  | _ => exact ⟨_, rfl⟩

theorem step_withRequest_error {s : State} {r : Request} {e : DecodeError} (hd : decodeRequest s.cartBankMode r = .error e) :
    step (s.withRequest r) = rejectRequest r e s := step_error (s := s.withRequest r) rfl hd

/-- READs and WRITEs are admitted by `whenRunning`, whether they decode or not (R184). -/
theorem step_bus_eq_whenRunning (s : State) (dir : Dir) (addr data : Nat) :
    ∃ k, step (s.withRequest (.bus dir addr data)) = whenRunning s k := by
  cases hd : decodeRequest s.cartBankMode (.bus dir addr data) with
  | error e => exact ⟨_, step_withRequest_error hd⟩
  | ok i =>
    have hbus := decodeRequest_bus_isBus hd
    rw [step_withRequest hd]
    exact exec_eq_whenRunning (by rintro src rfl; exact hbus) (by rintro rfl; exact hbus) s

/-- TICKs are admitted by `whenRunning`, LOADs and RESETs by `whenPhase`, whether they decode or not (R184). -/
theorem step_sys_eq_admission (s : State) (kind : BitVec 2) (operand : Nat) (source : Option (List Byte)) :
    ∃ k, step (s.withRequest (.sys kind operand source)) =
      if kind = 0 then whenPhase .unloaded s k else if kind = 1 then whenPhase .loaded s k
      else if kind = 2 then whenRunning s k else whenUnfaulted s k := by
  cases hd : decodeRequest s.cartBankMode (.sys kind operand source) with
  | error e => exact ⟨rejected e s, step_withRequest_error hd⟩
  | ok i =>
    obtain ⟨rfl, -, rfl⟩ | ⟨rfl, -, rfl⟩ | ⟨rfl, c, rfl⟩ := decodeRequest_sys_ok hd
    all_goals exact ⟨_, step_withRequest hd⟩

/-- Settles O10: the admission check of each request, out of its phase. -/
theorem requestsOutOfPhaseAreRefused : Obligations.RequestsOutOfPhaseAreRefused := by
  intro s hf
  refine ⟨fun hp => ⟨fun dir addr data => ?_, fun operand source => ?_⟩, fun hp operand source => ?_,
    fun hp operand source => ?_⟩
  · obtain ⟨k, hk⟩ := step_bus_eq_whenRunning s dir addr data
    exact hk.trans (whenRunning_not hf hp)
  · obtain ⟨k, hk⟩ := step_sys_eq_admission s 2 operand source
    exact hk.trans (whenRunning_not hf hp)
  · obtain ⟨k, hk⟩ := step_sys_eq_admission s 0 operand source
    exact hk.trans (whenPhase_not hf hp)
  · obtain ⟨k, hk⟩ := step_sys_eq_admission s 1 operand source
    exact hk.trans (whenPhase_not hf hp)

/-! ## In phase, without an instruction -/

/-- Settles O9: each request's decode error, rejected after its own admission check. -/
theorem undecodableRequestsAreNamed : Obligations.UndecodableRequestsAreNamed := by
  intro s hf
  refine ⟨fun operand source => ?_, fun hp addr data hdata => ?_, fun hp addr data haddr hdata => ?_,
    fun hp addr data haddr => ?_, fun hp operand source hop => ?_, fun hp operand source hop => ?_,
    fun hp operand source hop => ?_⟩
  · rw [step_withRequest_error (decodeRequest_sys_reserved _ source (.inl rfl))]
    exact whenUnfaulted_ok hf
  · have hd : decodeRequest s.cartBankMode (.write addr data) = .error .dataWidth := by
      simp [decodeRequest, formFrame, Nat.not_le_of_gt hdata]
    rw [step_withRequest_error hd]
    exact whenRunning_ready ⟨hf, hp⟩
  · have hd : decodeRequest s.cartBankMode (.write addr data) = .error (.badAddress addr) := by
      simp [decodeRequest, formFrame, hdata, Nat.not_le_of_gt haddr]
    rw [step_withRequest_error hd]
    exact whenRunning_ready ⟨hf, hp⟩
  · have hd : decodeRequest s.cartBankMode (.bus .read addr data) = .error (.badAddress addr) := by
      simp [decodeRequest, formFrame, Nat.not_le_of_gt haddr]
    rw [step_withRequest_error hd]
    exact whenRunning_ready ⟨hf, hp⟩
  · have hd : decodeRequest s.cartBankMode (.sys 2 operand source) = .error .tickRange := by
      simp [decodeRequest, formFrame, Nat.not_le_of_gt hop]
    rw [step_withRequest_error hd]
    exact whenRunning_ready ⟨hf, hp⟩
  · rw [step_withRequest_error (decodeRequest_sys_reserved _ source (.inr ⟨.inl rfl, hop⟩))]
    exact whenPhase_ok hf hp
  · rw [step_withRequest_error (decodeRequest_sys_reserved _ source (.inr ⟨.inr rfl, hop⟩))]
    exact whenPhase_ok hf hp

end Sys2Proof.Machine
end

section
/-! SUPPORT. The start of a session: LOAD, RESET and the power-up values (40_cartridge.md, 70_reset_and_hazards.md). -/

namespace Sys2Proof.Machine

open Sys2Proof.Machine.Claims

/-! ## Power-up values -/

theorem Memory.mem_of_get? {a : Nat} {v : Byte} {m : Memory} (h : Memory.get? a m = some v) : (a, v) ∈ m := by
  induction m with
  | nil => cases h
  | cons c m ih =>
    obtain ⟨b, w⟩ := c
    simp only [Memory.get?] at h
    split at h
    · next hab => cases h; rw [hab]; exact List.mem_cons_self
    · exact List.mem_cons_of_mem _ (ih h)

/-- Settles O22: the table by evaluation; an address that it does not list is in `powerUpIo` with the byte 0x00 or not at all. -/
theorem powerUpBytesOfInternalMemory : Obligations.PowerUpBytesOfInternalMemory := by
  refine ⟨rfl, rfl, rfl, rfl, rfl, rfl, rfl, rfl, rfl, rfl, rfl, rfl, rfl, rfl, rfl, rfl, rfl, rfl, rfl, fun a ha => ?_⟩
  have htable : ∀ c ∈ powerUpIo, c.2 = 0x00 ∨
      c.1 ∈ [0xFF10, 0xFF11, 0xFF12, 0xFF14, 0xFF16, 0xFF19, 0xFF1A, 0xFF1B, 0xFF1C, 0xFF1E, 0xFF20, 0xFF23, 0xFF24, 0xFF25,
        0xFF26, 0xFF40, 0xFF47, 0xFF48, 0xFF49] := by decide
  rw [intPowerUp]
  cases hget : Memory.get? a powerUpIo with
  | none => rfl
  | some v =>
    rcases htable _ (Memory.mem_of_get? hget) with hzero | hlisted
    · exact hzero
    · exact absurd hlisted ha

/-- The power-up values meet the invariant with any cartridge in canonical form. -/
theorem inv_powerUp {s : State}
    (hcart : Memory.wf (fun a => decide (a < Config.romImageSize)) cartDefault s.cartBytes = true) : s.powerUp.Inv := by
  have hbank : s.powerUp.BankInv :=
    ⟨by simp [State.powerUp], fun _ => rfl, fun _ => ⟨rfl, rfl, rfl, rfl⟩, fun _ => ⟨by simp [State.powerUp], rfl, rfl⟩⟩
  have htimer : s.powerUp.TimerInv := by simp [State.TimerInv, State.powerUp, freqTable, frequencySelect]
  exact ⟨⟨hcart, rfl, rfl⟩, fun _ => ⟨hbank, htimer⟩⟩

/-- Settles O15: an empty image is in canonical form, and UNLOADED asks no more. -/
theorem sessionStartMeetsTheInvariant : Obligations.SessionStartMeetsTheInvariant :=
  ⟨⟨rfl, rfl, rfl⟩, fun hrunning => by cases hrunning⟩

/-- Settles O16. -/
theorem sessionStartValues : Obligations.SessionStartValues :=
  ⟨rfl, rfl, rfl, rfl, rfl, rfl, rfl, rfl, rfl, rfl, rfl, rfl, rfl, rfl⟩

/-! ## LOAD and RESET -/

theorem decodeRequest_load (m : BankMode) (source : Option (List Byte)) :
    decodeRequest m (.load source) = .ok (.load source) :=
  (decodeRequest_sys m 0 0 source).trans (decode_sysFrame 0 0 source)

theorem decodeRequest_reset (m : BankMode) : decodeRequest m .reset = .ok .reset :=
  (decodeRequest_sys m 1 0 none).trans (decode_sysFrame 1 0 none)

/-- RESET accepted (R201). -/
theorem exec_reset {s : State} (hf : s.fault = none) (hp : s.phase = .loaded) :
    exec .reset s = .next (s.powerUp.answer .done) := whenPhase_ok hf hp

/-- Settles O18: the next state is `loadImage`'s, whose bytes are those of the source. -/
theorem loadCopiesTheImage : Obligations.LoadCopiesTheImage := by
  intro s src hf hp hlen
  refine ⟨decodeRequest_load _ _, _, exec_load_some hf hp hlen, fun a => ?_, State.cartBankMode_loadImage src s,
    State.cartRamBankCount_loadImage src s, rfl, rfl, rfl⟩
  rw [State.answer_cartByte, State.cartByte_loadImage]

/-- Settles O20: LOAD's other two branches. -/
theorem loadTrapsAndRefusals : Obligations.LoadTrapsAndRefusals := by
  intro s hf hp
  refine ⟨whenPhase_ok hf hp, fun src hlen => ?_⟩
  have hlong : ¬ src.length ≤ Config.romImageSize := Nat.not_le_of_gt hlen
  exact (whenPhase_ok hf hp).trans (if_neg hlong)

/-- Settles O21: the next state is `powerUp`'s, whose storages list nothing. -/
theorem resetSetsPowerUpValues : Obligations.ResetSetsPowerUpValues := by
  intro s hf hp
  exact ⟨decodeRequest_reset _, _, exec_reset hf hp, fun _ => rfl, fun _ => rfl, ⟨rfl, rfl, rfl⟩,
    fun ⟨⟨hcart, _⟩, _⟩ => inv_powerUp hcart, rfl, rfl, rfl, rfl, rfl, rfl, rfl, rfl, rfl, rfl, rfl, hf, rfl, rfl, rfl⟩

theorem step_load {s : State} {src : List Byte} {rest : List Request} (hf : s.fault = none) (hp : s.phase = .unloaded)
    (hlen : src.length ≤ 0x200000) (hinbox : s.inbox = .load (some src) :: rest) :
    step s = .next ((({ s with inbox := rest } : State).loadImage src).answer .done) :=
  (step_ok hinbox (decodeRequest_load _ _)).trans (exec_load_some (s := { s with inbox := rest }) hf hp hlen)

theorem step_reset {s : State} {rest : List Request} (hf : s.fault = none) (hp : s.phase = .loaded)
    (hinbox : s.inbox = .reset :: rest) : step s = .next (({ s with inbox := rest } : State).powerUp.answer .done) :=
  (step_ok hinbox (decodeRequest_reset _)).trans (exec_reset (s := { s with inbox := rest }) hf hp)

/-- Settles O17: two accepted requests, whose next states are `loadImage`'s and then `powerUp`'s. -/
theorem loadThenResetStartsTheSession : Obligations.LoadThenResetStartsTheSession := by
  intro s src rest hf hp hlen hinbox
  refine ⟨_, (run_succ (step_load hf hp hlen hinbox)).trans (run_succ (step_reset hf rfl rfl)), ⟨hf, rfl⟩, ?_, rfl, rfl,
    fun a => State.cartByte_loadImage src s a, State.cartBankMode_loadImage src s, State.cartRamBankCount_loadImage src s⟩
  exact inv_powerUp (wf_imageCells hlen)

end Sys2Proof.Machine
end

section
/-! SUPPORT. The remaining rows on a Ready block, and their statements: the READs of the switchable window, of external RAM,
of the unusable region and of the timer, the WRITEs of the timer, and a TICK's frame (42_address_space.md, 43_timer.md). -/

namespace Sys2Proof.Machine

open Sys2Proof.Machine.Claims

/-! ## The rows on a Ready block -/

theorem timerRegister_of_toNat (a : Addr) (s : State) :
    (a.toNat = 0xFF04 → timerRegister a s = s.div) ∧ (a.toNat = 0xFF05 → timerRegister a s = s.tima) ∧
      (a.toNat = 0xFF06 → timerRegister a s = s.tma) ∧ (a.toNat = 0xFF07 → timerRegister a s = s.tmc) := by
  have haddr {n : Nat} (h : a.toNat = n) : a = BitVec.ofNat 16 n := by rw [← h, BitVec.ofNat_toNat, BitVec.setWidth_eq]
  refine ⟨fun h => ?_, fun h => ?_, fun h => ?_, fun h => ?_⟩ <;> rw [haddr h] <;> rfl

section
variable {s : State} (a : Addr) (d : Byte) (h : s.Ready)
include h

theorem exec_rdTimer : exec (.rdTimer a) s = .next (s.answer (.byte (timerRegister a s))) := whenRunning_ready h

theorem exec_rdUnusable : exec (.rdUnusable a) s = .next (s.answer (.byte 0xFF)) := whenRunning_ready h

theorem exec_rdRomx_inside (hin : romOffset a s.currentROMBank < 0x200000) :
    exec (.rdRomx a) s = .next (s.answer (.byte (s.cartByte (romOffset a s.currentROMBank)))) :=
  (whenRunning_ready h).trans (cartRead_inside hin)

theorem exec_rdRomx_outside (hout : 0x200000 ≤ romOffset a s.currentROMBank) :
    exec (.rdRomx a) s = .next (s.recordFault (.romRange a s.currentROMBank (romOffset a s.currentROMBank))) :=
  (whenRunning_ready h).trans (cartRead_outside hout)

theorem exec_rdExtram_enabled (hram : s.ramBankingEnabled = true) :
    exec (.rdExtram a) s = .next (s.answer (.byte (s.extByte (extOffset a s.currentRAMBank)))) :=
  (whenRunning_ready h).trans (if_pos hram)

theorem exec_rdExtram_disabled (hram : s.ramBankingEnabled = false) :
    exec (.rdExtram a) s = .next (s.answer (.byte 0xFF)) :=
  (whenRunning_ready h).trans (if_neg (by simp [hram]))

theorem exec_wrDiv : exec (.wrDiv d) s = .next { s with div := 0, response := some .done } := whenRunning_ready h

theorem exec_wrTima : exec (.wrTima d) s = .next { s with tima := d, response := some .done } := whenRunning_ready h

theorem exec_wrTma : exec (.wrTma d) s = .next { s with tma := d, response := some .done } := whenRunning_ready h

end

/-- The offset of the switchable window lies in the image for the banks below 0x80, and for no other (R60, R133). -/
theorem romOffset_lt_iff {a : Addr} (hwf : (Instr.rdRomx a).wf = true) (bank : Byte) :
    romOffset a bank < 0x200000 ↔ bank.toNat < 0x80 := by
  obtain ⟨hlo, hhi⟩ := Addr.within_iff.1 hwf
  show (a.toNat - 0x4000) + bank.toNat * 0x4000 < 0x200000 ↔ bank.toNat < 0x80
  omega

/-- External RAM holds the offset of every address of its window in every bank (R61). -/
theorem extOffset_lt {a : Addr} (hlo : 0xA000 ≤ a.toNat) (hhi : a.toNat ≤ 0xBFFF) (bank : BitVec 2) :
    extOffset a bank < 0x8000 := by
  have hbank := bank.isLt
  show (a.toNat - 0xA000) + bank.toNat * 0x2000 < 0x8000
  omega

/-! ## READs -/

/-- Settles O32: the bound is `romOffset_lt_iff`'s. -/
theorem readSwitchableRomBank : Obligations.ReadSwitchableRomBank := by
  intro addr s hwf h hbank
  have hin := (romOffset_lt_iff hwf s.currentROMBank).2 hbank
  exact ⟨decodesAlways_read (by simp) hwf, hin, exec_rdRomx_inside addr h hin⟩

/-- Settles O33: the same bound, from the other side. -/
theorem readPastTheImageFaults : Obligations.ReadPastTheImageFaults := by
  intro addr s hwf h hbank
  have hout : ¬ romOffset addr s.currentROMBank < 0x200000 := by rw [romOffset_lt_iff hwf]; omega
  exact exec_rdRomx_outside addr h (Nat.le_of_not_lt hout)

/-- Settles O34. -/
theorem readExternalRam : Obligations.ReadExternalRam := by
  intro addr s hwf h
  obtain ⟨hlo, hhi⟩ := Addr.within_iff.1 hwf
  exact ⟨decodesAlways_read (by simp) hwf,
    fun hram => ⟨extOffset_lt hlo hhi s.currentRAMBank, exec_rdExtram_enabled addr h hram⟩,
    exec_rdExtram_disabled addr h⟩

/-- Settles O35. -/
theorem readUnusableRegion : Obligations.ReadUnusableRegion :=
  fun addr _ hwf h => ⟨decodesAlways_read (by simp) hwf, exec_rdUnusable addr h⟩

/-- Settles O36: the row's four addresses are the four cases of `timerRegister`. -/
theorem readTimerRegisters : Obligations.ReadTimerRegisters :=
  fun addr s hwf h => ⟨decodesAlways_read (by simp) hwf, _, exec_rdTimer addr h, timerRegister_of_toNat addr s⟩

/-! ## WRITEs of the timer -/

/-- Settles O42. -/
theorem writeDivClearsIt : Obligations.WriteDivClearsIt :=
  fun data _ h => ⟨decodesAlways_timerWrite (a := 0xFF04) (by simp), exec_wrDiv data h⟩

/-- Settles O43. -/
theorem writeTimaAndTma : Obligations.WriteTimaAndTma :=
  fun data _ h => ⟨decodesAlways_timerWrite (a := 0xFF05) (by simp), exec_wrTima data h,
    decodesAlways_timerWrite (a := 0xFF06) (by simp), exec_wrTma data h⟩

theorem frequencySelect_eq_iff (a b : Byte) : frequencySelect a = frequencySelect b ↔ a.toNat % 4 = b.toNat % 4 := by
  rw [← BitVec.toNat_inj, toNat_frequencySelect, toNat_frequencySelect]

/-- FREQ_TABLE by the value of TMC (R160). -/
theorem freqTable_frequencySelect (d : Byte) :
    (freqTable (frequencySelect d) : Int) =
      if d.toNat % 4 = 0 then 1024 else if d.toNat % 4 = 1 then 16 else if d.toNat % 4 = 2 then 64 else 256 := by
  have hsel : d.toNat % 4 = 0 ∨ d.toNat % 4 = 1 ∨ d.toNat % 4 = 2 ∨ d.toNat % 4 = 3 := by omega
  rw [freqTable, toNat_frequencySelect]
  rcases hsel with hsel | hsel | hsel | hsel <;> rw [hsel] <;> rfl

/-- Settles O44: `exec_wrTmc`, with the selects and the table by value. -/
theorem writeTmcReloadsOnFrequencyChange : Obligations.WriteTmcReloadsOnFrequencyChange := by
  intro data s h
  refine ⟨decodesAlways_timerWrite (a := 0xFF07) (by simp), ?_⟩
  rw [exec_wrTmc h, freqTable_frequencySelect]
  simp only [frequencySelect_eq_iff, State.answer]

/-! ## TICK -/

theorem decodesAlways_tick (cycles : BitVec 16) : DecodesAlways (.tick cycles.toNat) (.tick cycles) :=
  fun m => (decodeRequest_sys m 2 cycles none).trans (decode_sysFrame 2 cycles none)

/-- Settles O48. -/
theorem tickCompletesAndWritesOnlyTheCounters : Obligations.TickCompletesAndWritesOnlyTheCounters := by
  intro cycles s h
  refine ⟨decodesAlways_tick cycles, _, _, exec_tick h cycles, rfl, onlyCountersWritten_tickStep _ _ s, fun hoff => ?_⟩
  rw [tickStep_disabled hoff]
  exact ⟨rfl, dividerStep_tima _ s, dividerStep_timerCounter _ s⟩

theorem dividerStep_zero {s : State} (h : s.dividerCounter ≤ 254) : dividerStep 0 s = s := by
  rcases dividerStep_cases 0 s with ⟨hexpired, -⟩ | ⟨-, hstep⟩
  · omega
  · simp [hstep]

theorem timerStep_zero {s : State} (h : 1 ≤ s.timerCounter) : timerStep 0 s = (s, false) := by
  rcases timerStep_cases 0 s with ⟨hexpired, -⟩ | ⟨hexpired, -⟩ | ⟨-, hstep⟩
  · omega
  · omega
  · simp [hstep]

/-- Settles O51: neither counter can expire without a cycle. -/
theorem tickOfZeroChangesNothing : Obligations.TickOfZeroChangesNothing := by
  intro s h hinv
  obtain ⟨-, hdivider, htimer, -⟩ := hinv
  have htick : tickStep 0 s = (s, false) := by
    cases hen : timerEnabled s.tmc with
    | false => rw [tickStep_disabled hen, dividerStep_zero hdivider]
    | true => rw [tickStep_enabled hen, dividerStep_zero hdivider, timerStep_zero htimer]
  have hexec := exec_tick h 0
  rwa [show (0 : BitVec 16).toNat = 0 from rfl, htick] at hexec

end Sys2Proof.Machine
end

section
/-! SUPPORT. The invariant of the block, kept by every instruction that decodes and so by every step; then the sessions without
a controller and on MBC2 (R40, R41, R161). -/

namespace Sys2Proof.Machine

open Sys2Proof.Machine.Claims

theorem ensures_whenRunning_ready {P : State → Prop} {s : State} {k : Result} (hrefuse : ∀ why, P (s.recordRefusal why))
    (hk : s.Ready → Ensures k P) : Ensures (whenRunning s k) P := by
  intro t h
  obtain ⟨hready, hkt⟩ | ⟨f, -, rfl⟩ | ⟨-, -, rfl⟩ := whenRunning_cases h
  · exact hk hready t hkt
  · exact hrefuse _
  · exact hrefuse _

theorem ensures_ite_of {P : State → Prop} {j k : Result} {p : Prop} [Decidable p] (hj : p → Ensures j P)
    (hk : ¬ p → Ensures k P) : Ensures (if p then j else k) P := by
  split
  next hp => exact hj hp
  next hp => exact hk hp

/-! ## The storages (R41) -/

section
variable {s : State} {a : Addr} (d : Byte) (hmem : s.MemoryWf)
include hmem

theorem memoryWf_setInt {x : Nat} (hx : usedIntAddress x = true) : (s.setInt x d).MemoryWf := by
  obtain ⟨hcart, hint, hext⟩ := hmem
  exact ⟨hcart, Memory.wf_write d hx hint, hext⟩

theorem memoryWf_setExt {o : Nat} (ho : o < 0x8000) : (s.setExt o d).MemoryWf := by
  obtain ⟨hcart, hint, hext⟩ := hmem
  exact ⟨hcart, hint, Memory.wf_write d (decide_eq_true ho) hext⟩

end

theorem usedIntAddress_iff (x : Nat) :
    usedIntAddress x = true ↔
      (0x8000 ≤ x ∧ x < 0xA000) ∨ (0xC000 ≤ x ∧ x < 0xFEA0) ∨ (0xFF00 ≤ x ∧ x < 0xFF04) ∨ (0xFF08 ≤ x ∧ x < 0x10000) := by
  simp only [usedIntAddress, Bool.or_eq_true, Bool.and_eq_true, decide_eq_true_eq, or_assoc]

/-- The four rows of WR_INTERNAL write used addresses only (R41, R86). -/
theorem usedIntAddress_of_row {a : Addr} {d : Byte} {i : Instr}
    (hi : i ∈ [Instr.wrInternal a d, .wrInternalHigh a d, .wrInternalFe80 a d, .wrInternalFe00 a d]) (hwf : i.wf = true) :
    usedIntAddress a.toNat = true := by
  have ha := a.isLt
  rw [usedIntAddress_iff]
  simp only [List.mem_cons, List.not_mem_nil, or_false] at hi
  rcases hi with rfl | rfl | rfl | rfl
  all_goals
    simp only [Instr.wf, Addr.highPage, Bool.or_eq_true, Addr.within_iff] at hwf
    omega

/-! ## The bank registers (R40) -/

theorem forceBank_ne_zero (b : Byte) : forceBank b ≠ 0 := by
  unfold forceBank
  split
  · decide
  · assumption

theorem toNat_forceBank_mbc2 (d : Byte) : (forceBank (mbc2RomBits d)).toNat ≤ 15 := by
  have hbits : (mbc2RomBits d).toNat = d.toNat % 16 := toNat_lowNibble d
  rw [forceBank_eq, hbits, BitVec.toNat_ofNat]
  omega

/-- On MBC1 the bank registers are held to two things only. -/
theorem bankInv_of_mbc1 {s : State} (hm : s.cartBankMode = .mbc1) (hrom : s.currentROMBank ≠ 0)
    (hram : s.romBankingModeActive = true → s.currentRAMBank = 0) : s.BankInv :=
  ⟨hrom, hram, fun hnone => by simp [hm] at hnone, fun hmbc2 => by simp [hm] at hmbc2⟩

theorem bankInv_ramEnable {s : State} (h : s.BankInv) (hm : s.cartBankMode ≠ .none) (d : Byte) :
    (ramEnable d s).BankInv := by
  obtain ⟨hrom, hram, -, hmbc2⟩ := h
  rw [ramEnable_eq]
  exact ⟨hrom, hram, fun hnone => absurd hnone hm, hmbc2⟩

/-! ## The counters (R161) -/

theorem timerInv_tickStep {s : State} (h : s.TimerInv) (n : Nat) : (tickStep n s).1.TimerInv := by
  obtain ⟨hd0, hd1, ht0, ht1⟩ := h
  have hdivider : 0 ≤ (dividerStep n s).dividerCounter ∧ (dividerStep n s).dividerCounter ≤ 254 := by
    rcases dividerStep_cases n s with ⟨-, hstep⟩ | ⟨hlt, hstep⟩ <;> rw [hstep] <;> dsimp only <;> omega
  have htimer : 1 ≤ (tickStep n s).1.timerCounter ∧
      (tickStep n s).1.timerCounter ≤ freqTable (frequencySelect s.tmc) := by
    cases hen : timerEnabled s.tmc with
    | false => rw [tickStep_disabled hen, dividerStep_timerCounter]; exact ⟨ht0, ht1⟩
    | true =>
      have hpos := freqTable_pos (frequencySelect s.tmc)
      have hcases := timerStep_cases n (dividerStep n s)
      simp only [dividerStep_timerCounter, dividerStep_tmc] at hcases
      rw [tickStep_enabled hen]
      rcases hcases with ⟨-, -, hstep⟩ | ⟨-, -, hstep⟩ | ⟨hlt, hstep⟩ <;> rw [hstep] <;> dsimp only <;> omega
  simp only [State.TimerInv, tickStep_dividerCounter, tickStep_tmc]
  exact ⟨hdivider.1, hdivider.2, htimer.1, htimer.2⟩

theorem timerInv_wrTmc {s : State} (h : s.TimerInv) (d : Byte) (hsel : frequencySelect d = frequencySelect s.tmc) :
    State.TimerInv { s with tmc := d } := by
  obtain ⟨hd0, hd1, ht0, ht1⟩ := h
  exact ⟨hd0, hd1, ht0, hsel ▸ ht1⟩

theorem timerInv_reload {s : State} (h : s.TimerInv) (d : Byte) :
    State.TimerInv { s with tmc := d, timerCounter := freqTable (frequencySelect d) } := by
  obtain ⟨hd0, hd1, -, -⟩ := h
  have hpos := freqTable_pos (frequencySelect d)
  exact ⟨hd0, hd1, by dsimp only; omega, le_refl _⟩

/-! ## Instructions and steps -/

/-- A decoded instruction keeps the invariant: each row's write is one of the lemmas above. -/
theorem exec_ensures_inv {i : Instr} {s : State} (hinv : s.Inv) (hwf : i.wf = true) (hfits : FitsMode s.cartBankMode i) :
    Ensures (exec i s) State.Inv := by
  obtain ⟨hmem, hrun⟩ := hinv
  have hrunning {k : Result} (hk : s.BankInv → s.TimerInv → Ensures k State.Inv) :
      Ensures (whenRunning s k) State.Inv :=
    ensures_whenRunning_ready (fun _ => ⟨hmem, hrun⟩) fun hready => hk (hrun hready.2).1 (hrun hready.2).2
  cases i with
  | load source =>
    refine ensures_whenPhase _ (fun _ => ⟨hmem, hrun⟩) ?_
    cases source with
    | none => exact ensures_next ⟨hmem, hrun⟩
    | some src =>
      exact ensures_ite_of (fun hlen => ensures_next ⟨⟨wf_imageCells hlen, hmem.2⟩, fun hp => by cases hp⟩)
        (fun _ => ensures_next ⟨hmem, hrun⟩)
  | reset => exact ensures_whenPhase _ (fun _ => ⟨hmem, hrun⟩) (ensures_next (inv_powerUp hmem.1))
  | rdTimer _ | rdInternalHigh _ | rdInternalFe80 _ | rdInternalFe00 _ | rdUnusable _ | rdInternal _ | wrDiv _ | wrTima _
  | wrTma _ | wrUnusable _ _ | wrMbc2RamenIgn _ _ | wrMbc2Nop _ _ | wrNoneNop _ _ =>
    exact hrunning fun _ _ => ensures_next ⟨hmem, hrun⟩
  | rdRom0 _ | rdRomx _ | rdExtram _ =>
    exact hrunning fun _ _ => ensures_ite (ensures_next ⟨hmem, hrun⟩) (ensures_next ⟨hmem, hrun⟩)
  | wrInternalHigh a d | wrInternalFe80 a d | wrInternalFe00 a d | wrInternal a d =>
    have hused := usedIntAddress_of_row (a := a) (d := d) (by simp) hwf
    exact hrunning fun _ _ => ensures_next ⟨memoryWf_setInt d hmem hused, hrun⟩
  | wrEcho a d =>
    obtain ⟨hlo, hhi⟩ := Addr.within_iff.1 hwf
    have htarget := toNat_echoTarget (a := a) (by omega)
    have hused : usedIntAddress a.toNat = true := (usedIntAddress_iff _).2 (by omega)
    have hused' : usedIntAddress (echoTarget a).toNat = true := (usedIntAddress_iff _).2 (by omega)
    exact hrunning fun _ _ => ensures_next ⟨memoryWf_setInt d (memoryWf_setInt d hmem hused) hused', hrun⟩
  | wrExtram a d =>
    obtain ⟨hlo, hhi⟩ := Addr.within_iff.1 hwf
    have hoffset := extOffset_lt hlo hhi s.currentRAMBank
    exact hrunning fun _ _ => ensures_ite (ensures_next ⟨memoryWf_setExt d hmem hoffset, hrun⟩) (ensures_next ⟨hmem, hrun⟩)
  | wrMbc1Ramen a d | wrMbc2Ramen a d =>
    have hm : s.cartBankMode ≠ .none := by simp only [FitsMode] at hfits; simp [hfits]
    refine hrunning fun hbank htimer => ensures_next ⟨?_, fun _ => ⟨bankInv_ramEnable hbank hm d, ?_⟩⟩
    · simpa [State.MemoryWf] using hmem
    · simpa [State.TimerInv] using htimer
  | wrMbc1Romlo a d =>
    exact hrunning fun ⟨_, hram, _⟩ htimer =>
      ensures_next ⟨hmem, fun _ => ⟨bankInv_of_mbc1 hfits (forceBank_ne_zero _) hram, htimer⟩⟩
  | wrMbc1Hi a d =>
    exact hrunning fun ⟨hrom, hram, _⟩ htimer => ensures_ite_of
      (fun _ => ensures_next ⟨hmem, fun _ => ⟨bankInv_of_mbc1 hfits (forceBank_ne_zero _) hram, htimer⟩⟩)
      (fun hoff => ensures_next ⟨hmem, fun _ => ⟨bankInv_of_mbc1 hfits hrom fun hon => absurd hon hoff, htimer⟩⟩)
  | wrMbc1Mode a d =>
    exact hrunning fun ⟨hrom, _, _⟩ htimer => ensures_ite
      (ensures_next ⟨hmem, fun _ => ⟨bankInv_of_mbc1 hfits hrom fun _ => rfl, htimer⟩⟩)
      (ensures_next ⟨hmem, fun _ => ⟨bankInv_of_mbc1 hfits hrom fun hon => absurd hon Bool.false_ne_true, htimer⟩⟩)
  | wrMbc2Romlo a d =>
    have hm : s.cartBankMode ≠ .none := by simp only [FitsMode] at hfits; simp [hfits]
    exact hrunning fun ⟨_, hram, _, hmbc2⟩ htimer => ensures_next ⟨hmem, fun _ =>
      ⟨⟨forceBank_ne_zero _, hram, fun h => absurd h hm, fun h => ⟨toNat_forceBank_mbc2 d, (hmbc2 h).2⟩⟩, htimer⟩⟩
  | wrTmc d =>
    exact hrunning fun hbank htimer => ensures_ite_of
      (fun hsel => ensures_next ⟨hmem, fun _ => ⟨hbank, timerInv_wrTmc htimer d hsel⟩⟩)
      (fun _ => ensures_next ⟨hmem, fun _ => ⟨hbank, timerInv_reload htimer d⟩⟩)
  | tick cycles =>
    refine hrunning fun hbank htimer => ensures_next ⟨?_, fun _ => ⟨?_, timerInv_tickStep htimer _⟩⟩
    · simpa [State.MemoryWf] using hmem
    · simpa [State.BankInv] using hbank

/-- A request without an instruction writes a refusal or the fault record, and so keeps what holds with either written. -/
theorem rejectRequest_ensures {P : State → Prop} {s : State} (r : Request) {e : DecodeError}
    (hrefuse : ∀ why, P (s.recordRefusal why)) (hfault : ∀ x, e = .badAddress x → P (s.recordFault (.addr x))) :
    Ensures (rejectRequest r e s) P := by
  have hrejected : Ensures (rejected e s) P := by
    cases e with
    | reserved | dataWidth | tickRange => exact ensures_next (hrefuse _)
    | badAddress x => exact ensures_next (hfault x rfl)
  cases r with
  | bus dir addr data => exact ensures_whenRunning hrefuse hrejected
  | sys kind operand source =>
    exact ensures_ite (ensures_whenPhase _ hrefuse hrejected) <| ensures_ite (ensures_whenPhase _ hrefuse hrejected) <|
      ensures_ite (ensures_whenRunning hrefuse hrejected) (ensures_ite (ensures_next (hrefuse _)) hrejected)

/-- Settles O14: what decodes is well formed and fits the cartridge, so that `exec_ensures_inv` applies; a rejected request
writes no field that the invariant reads. -/
theorem stepKeepsTheInvariant : Obligations.StepKeepsTheInvariant := by
  intro s t hinv h
  obtain ⟨-, hstep⟩ | ⟨r, rest, i, -, hd, hstep⟩ | ⟨r, rest, e, -, -, hstep⟩ := step_cases s
  · cases hstep.symm.trans h
    exact hinv
  · exact exec_ensures_inv (s := { s with inbox := rest }) hinv (decodeRequest_wf hd) (decodeRequest_fitsMode hd) t
      (hstep.symm.trans h)
  · exact rejectRequest_ensures (s := { s with inbox := rest }) r (fun _ => hinv) (fun _ _ => hinv) t (hstep.symm.trans h)

/-! ## Sessions -/

/-- A RUNNING block stays so: LOAD and RESET are turned away (R38). -/
theorem exec_running {i : Instr} {s t : State} (hs : s.phase = .running) (h : exec i s = .next t) : t.phase = .running := by
  by_cases hreset : i = .reset
  · subst hreset
    obtain ⟨-, hphase | hphase⟩ := execReset_sameCart h
    · exact hphase
    · exact hphase.trans hs
  by_cases hload : ∃ src, i = .load src
  · obtain ⟨src, rfl⟩ := hload
    obtain ⟨-, hphase⟩ := execLoad_keepsCartAndPhase src (by simp [hs]) t h
    exact hphase.trans hs
  · obtain ⟨-, hphase⟩ := exec_keepsCartAndPhase s (fun src hi => hload ⟨src, hi⟩) hreset t h
    exact hphase.trans hs

theorem step_running {s t : State} (hs : s.phase = .running) (h : step s = .next t) : t.phase = .running := by
  obtain ⟨-, hstep⟩ | ⟨r, rest, i, -, -, hstep⟩ | ⟨r, rest, e, -, -, hstep⟩ := step_cases s
  · cases hstep.symm.trans h
    exact hs
  · exact exec_running (s := { s with inbox := rest }) hs (hstep.symm.trans h)
  · obtain ⟨-, hphase⟩ := keeps_rejectRequest (s := { s with inbox := rest }) r e t (hstep.symm.trans h)
    exact hphase.trans hs

/-- A RUNNING block that meets the invariant, on a cartridge of bank mode `m`. -/
def InSession (m : BankMode) (s : State) : Prop := s.Inv ∧ s.phase = .running ∧ s.cartBankMode = m

theorem inSession_step {m : BankMode} (s t : State) (hs : InSession m s) (h : step s = .next t) : InSession m t := by
  obtain ⟨hinv, hphase, hmode⟩ := hs
  obtain ⟨-, -, hmode', -⟩ := step_loadedAs (by simp [hphase]) h
  exact ⟨stepKeepsTheInvariant s t hinv h, step_running hphase h, hmode'.trans hmode⟩

/-- Settles O30: a session of any length is `InSession` at its end, and `BankInv` names the registers of both modes. -/
theorem bankRegistersOfNoneAndMbc2Sessions : Obligations.BankRegistersOfNoneAndMbc2Sessions := by
  intro n s t hinv hphase hrun
  obtain ⟨⟨-, hregs⟩, hrunning, hmode⟩ := run_keeps (M := core) (P := InSession s.cartBankMode) inSession_step
    ⟨hinv, hphase, rfl⟩ hrun
  obtain ⟨⟨hpos, -, hnone, hmbc2⟩, -⟩ := hregs hrunning
  refine ⟨fun hs => hnone (hmode.trans hs), fun hs => ?_⟩
  obtain ⟨hle, hactive, hram⟩ := hmbc2 (hmode.trans hs)
  exact ⟨Nat.one_le_iff_ne_zero.2 fun hzero => hpos (BitVec.eq_of_toNat_eq hzero), hle, hactive, hram⟩

end Sys2Proof.Machine
end

section
/-! SUPPORT. What one instruction can write, and what it can raise: each register by its own instructions, the fault record by
LOAD and RD_ROMX, the interrupt request by TICK; and the one field that no instruction reads. -/

namespace Sys2Proof.Machine

open Sys2Proof.Machine.Claims

/-! ## Faults (R181, R182) -/

/-- The fault record after `i` from `s`: as it was, or the fault that `i` raises. -/
def FaultFrom (i : Instr) (s t : State) : Prop :=
  t.fault = s.fault ∨ (i = .load none ∧ t.fault = some .load) ∨
    ∃ a, i = .rdRomx a ∧ ¬ romOffset a s.currentROMBank < 0x200000 ∧
      t.fault = some (.romRange a s.currentROMBank (romOffset a s.currentROMBank))

theorem exec_faultFrom (i : Instr) (s : State) : Ensures (exec i s) (FaultFrom i s) := by
  have hrunning {k : Result} (hk : Ensures k (FaultFrom i s)) : Ensures (whenRunning s k) (FaultFrom i s) :=
    ensures_whenRunning (fun _ => .inl rfl) hk
  cases i with
  | load source =>
    refine ensures_whenPhase _ (fun _ => .inl rfl) ?_
    cases source with
    | none => exact ensures_next (.inr (.inl ⟨rfl, rfl⟩))
    | some src => exact ensures_ite (ensures_next (.inl rfl)) (ensures_next (.inl rfl))
  | reset => exact ensures_whenPhase _ (fun _ => .inl rfl) (ensures_next (.inl rfl))
  | rdRom0 a =>
    have hin : a.toNat < 0x200000 := by have := a.isLt; omega
    refine hrunning ?_
    rw [cartRead_inside hin]
    exact ensures_next (.inl rfl)
  | rdRomx a =>
    exact hrunning (ensures_ite_of (fun _ => ensures_next (.inl rfl))
      (fun hout => ensures_next (.inr (.inr ⟨a, rfl, hout, rfl⟩))))
  | rdExtram _ | wrExtram _ _ | wrMbc1Hi _ _ | wrMbc1Mode _ _ | wrTmc _ =>
    exact hrunning (ensures_ite (ensures_next (.inl rfl)) (ensures_next (.inl rfl)))
  | wrMbc1Ramen _ d | wrMbc2Ramen _ d => exact hrunning (ensures_next (.inl (ramEnable_fault d s)))
  | tick cycles => exact hrunning (ensures_next (.inl (tickStep_fault _ s)))
  | _ => exact hrunning (ensures_next (.inl rfl))

theorem decodeRequest_load_source {m : BankMode} {r : Request} {source : Option (List Byte)}
    (h : decodeRequest m r = .ok (.load source)) : r = .load source := by
  cases r with
  | bus dir addr data => exact False.elim (decodeRequest_bus_isBus h)
  | sys kind operand source' =>
    obtain ⟨rfl, rfl, hload⟩ | ⟨-, -, hreset⟩ | ⟨-, c, htick⟩ := decodeRequest_sys_ok h
    · cases hload; rfl
    · cases hreset
    · cases htick

theorem writeCase_ne_rdRomx {m : BankMode} {a b : Addr} {d : Byte} : ¬ WriteCase m a d (.rdRomx b) := by
  cases m with
  | none | mbc1 | mbc2 =>
    simp only [WriteCase, CommandCase]
    split_ifs <;> simp

theorem decodeRequest_rdRomx {m : BankMode} {r : Request} {a : Addr} (h : decodeRequest m r = .ok (.rdRomx a)) :
    ∃ data, r = .bus .read a.toNat data := by
  cases r with
  | bus dir addr data =>
    cases dir with
    | read =>
      obtain ⟨b, rfl, -, hcase⟩ := decodeRequest_read_ok h
      simp only [ReadCase] at hcase
      split_ifs at hcase
      case pos => cases hcase; exact ⟨data, rfl⟩
      case neg => simp at hcase
    | write =>
      obtain ⟨b, d, -, -, -, hcase⟩ := decodeRequest_write_ok h
      exact absurd hcase writeCase_ne_rdRomx
  | sys kind operand source =>
    obtain ⟨-, -, hload⟩ | ⟨-, -, hreset⟩ | ⟨-, c, htick⟩ := decodeRequest_sys_ok h
    · cases hload
    · cases hreset
    · cases htick

/-- A bank of 0x80 or more is MBC1's: the invariant holds the other modes below it (R40). -/
theorem mbc1_of_bank {s : State} (h : s.BankInv) (hbank : 0x80 ≤ s.currentROMBank.toNat) : s.cartBankMode = .mbc1 := by
  obtain ⟨-, -, hnone, hmbc2⟩ := h
  cases hm : s.cartBankMode with
  | mbc1 => rfl
  | none =>
    rw [(hnone hm).1] at hbank
    exact absurd hbank (by decide)
  | mbc2 =>
    have hle := (hmbc2 hm).1
    omega

/-- Settles O12: the fault of an instruction is `FaultFrom`'s, that of a rejected request is its address. -/
theorem faultsComeFromTheirOwnRequests : Obligations.FaultsComeFromTheirOwnRequests := by
  intro s t r rest f hinv hf hinbox hstep ht
  have hnew : t.fault ≠ s.fault := by simp [ht, hf]
  cases hd : decodeRequest s.cartBankMode r with
  | ok i =>
    rw [step_ok hinbox hd] at hstep
    obtain hsame | ⟨rfl, hload⟩ | ⟨a, rfl, hout, hrange⟩ := exec_faultFrom i { s with inbox := rest } t hstep
    · exact absurd hsame hnew
    · cases ht.symm.trans hload
      exact .inl ⟨rfl, decodeRequest_load_source hd⟩
    · cases ht.symm.trans hrange
      obtain ⟨data, rfl⟩ := decodeRequest_rdRomx hd
      have hwf := decodeRequest_wf hd
      obtain ⟨hlo, hhi⟩ := Addr.within_iff.1 hwf
      rw [romOffset_lt_iff hwf] at hout
      have hbank : 0x80 ≤ s.currentROMBank.toNat := Nat.le_of_not_lt hout
      have hready : s.phase = .running := by
        rcases whenRunning_cases hstep with ⟨⟨-, hphase⟩, -⟩ | ⟨g, hg, -⟩ | ⟨-, -, rfl⟩
        · exact hphase
        · simp [hf] at hg
        · exact absurd rfl hnew
      refine .inr (.inr ⟨a.toNat, data, rfl, hlo, by omega, mbc1_of_bank (hinv.2 hready).1 hbank, hbank, ?_⟩)
      rw [BitVec.ofNat_toNat, BitVec.setWidth_eq]
      rfl
  | error e =>
    rw [step_error hinbox hd] at hstep
    have haddr : t.fault = s.fault ∨ ∃ x, e = .badAddress x ∧ t.fault = some (.addr x) :=
      rejectRequest_ensures (P := fun t => t.fault = s.fault ∨ ∃ x, e = .badAddress x ∧ t.fault = some (.addr x))
        (s := { s with inbox := rest }) r (fun _ => .inl rfl) (fun x hx => .inr ⟨x, hx, rfl⟩) t hstep
    obtain hsame | ⟨x, rfl, hx⟩ := haddr
    · exact absurd hsame hnew
    · obtain ⟨dir, data, rfl, hlt⟩ := decodeRequest_badAddress hd
      cases ht.symm.trans hx
      exact .inr (.inl ⟨dir, x, data, rfl, hlt, rfl⟩)

/-! ## Registers (10_state.md sections 3 to 8) -/

/-- Each field of `t` but the fault record is that of `s`, or `i` is one of its writers. -/
def WrittenBy (i : Instr) (s t : State) : Prop :=
  (SameCart s t ∨ ∃ src, i = .load (some src)) ∧
  (t.romBankingModeActive = s.romBankingModeActive ∨ i = .reset ∨ ∃ a d, i = .wrMbc1Mode a d) ∧
  (t.currentROMBank = s.currentROMBank ∨ i = .reset ∨
    ∃ a d, i = .wrMbc1Romlo a d ∨ i = .wrMbc1Hi a d ∨ i = .wrMbc2Romlo a d) ∧
  (t.ramBankingEnabled = s.ramBankingEnabled ∨ i = .reset ∨ ∃ a d, i = .wrMbc1Ramen a d ∨ i = .wrMbc2Ramen a d) ∧
  (t.currentRAMBank = s.currentRAMBank ∨ i = .reset ∨ ∃ a d, i = .wrMbc1Hi a d ∨ i = .wrMbc1Mode a d) ∧
  (t.internal = s.internal ∨ i = .reset ∨
    ∃ a d, i = .wrInternal a d ∨ i = .wrInternalHigh a d ∨ i = .wrInternalFe80 a d ∨ i = .wrInternalFe00 a d ∨
      i = .wrEcho a d) ∧
  (t.external = s.external ∨ i = .reset ∨ ∃ a d, i = .wrExtram a d) ∧
  (t.div = s.div ∨ i = .reset ∨ (∃ d, i = .wrDiv d) ∨ ∃ c, i = .tick c) ∧
  (t.tima = s.tima ∨ i = .reset ∨ (∃ d, i = .wrTima d) ∨ ∃ c, i = .tick c) ∧
  (t.tma = s.tma ∨ i = .reset ∨ ∃ d, i = .wrTma d) ∧
  (t.tmc = s.tmc ∨ i = .reset ∨ ∃ d, i = .wrTmc d) ∧
  (t.dividerCounter = s.dividerCounter ∨ i = .reset ∨ ∃ c, i = .tick c) ∧
  (t.timerCounter = s.timerCounter ∨ i = .reset ∨ (∃ d, i = .wrTmc d) ∨ ∃ c, i = .tick c) ∧
  (t.phase = s.phase ∨ i = .reset ∨ ∃ src, i = .load (some src))

/-- Only the response, the refusals and the fault record were written. -/
theorem writtenBy_kept (i : Instr) (s : State) (fault : Option FaultRecord) (response : Option Response) (refusals : Nat) :
    WrittenBy i s { s with fault := fault, response := response, refusals := refusals } := by
  simp [WrittenBy, SameCart]

theorem exec_writtenBy (i : Instr) (s : State) : Ensures (exec i s) (WrittenBy i s) := by
  have hrefuse (w : RefuseReason) : WrittenBy i s (s.recordRefusal w) := writtenBy_kept i s _ _ _
  have hanswer (r : Response) : Ensures (respond r s) (WrittenBy i s) := ensures_next (writtenBy_kept i s _ _ _)
  have hfault (f : FaultRecord) : Ensures (raiseFault f s) (WrittenBy i s) := ensures_next (writtenBy_kept i s _ _ _)
  have hrunning {k : Result} (hk : Ensures k (WrittenBy i s)) : Ensures (whenRunning s k) (WrittenBy i s) :=
    ensures_whenRunning hrefuse hk
  cases i with
  | load source =>
    refine ensures_whenPhase _ hrefuse ?_
    cases source with
    | none => exact hfault _
    | some src => exact ensures_ite (ensures_next (by simp [WrittenBy, SameCart, State.loadImage])) (ensures_next (hrefuse _))
  | reset => exact ensures_whenPhase _ hrefuse (ensures_next (by simp [WrittenBy, SameCart, State.powerUp]))
  | rdTimer _ | rdInternalHigh _ | rdInternalFe80 _ | rdInternalFe00 _ | rdUnusable _ | rdInternal _ | wrUnusable _ _
  | wrMbc2RamenIgn _ _ | wrMbc2Nop _ _ | wrNoneNop _ _ => exact hrunning (hanswer _)
  | rdRom0 _ | rdRomx _ => exact hrunning (ensures_ite (hanswer _) (hfault _))
  | rdExtram _ => exact hrunning (ensures_ite (hanswer _) (hanswer _))
  | wrDiv _ | wrTima _ | wrTma _ | wrMbc1Romlo _ _ | wrMbc1Ramen _ _ | wrMbc2Ramen _ _ | wrMbc2Romlo _ _ | tick _ =>
    exact hrunning (ensures_next (by simp [WrittenBy, SameCart]))
  | wrInternalHigh _ _ | wrInternalFe80 _ _ | wrInternalFe00 _ _ | wrInternal _ _ | wrEcho _ _ =>
    exact hrunning (ensures_next (by simp [WrittenBy, SameCart, State.setInt]))
  | wrExtram _ _ => exact hrunning (ensures_ite (ensures_next (by simp [WrittenBy, SameCart, State.setExt])) (hanswer _))
  | wrMbc1Hi _ _ | wrMbc1Mode _ _ | wrTmc _ =>
    exact hrunning (ensures_ite (ensures_next (by simp [WrittenBy, SameCart])) (ensures_next (by simp [WrittenBy, SameCart])))

/-- Settles O55: `exec_writtenBy` for the registers, `exec_faultFrom` for the fault record. -/
theorem registersChangeOnlyByTheirWriters : Obligations.RegistersChangeOnlyByTheirWriters := by
  intro i s t h
  have hfault : t.fault = s.fault ∨ i = .load none ∨ ∃ a, i = .rdRomx a := by
    obtain hsame | ⟨hload, -⟩ | ⟨a, hromx, -⟩ := exec_faultFrom i s t h
    · exact .inl hsame
    · exact .inr (.inl hload)
    · exact .inr (.inr ⟨a, hromx⟩)
  simpa only [WrittenBy, and_assoc] using And.intro (exec_writtenBy i s t h) hfault

/-! ## The RAM-bank count (R25) -/

/-- The state with another RAM-bank count. -/
def State.withCount (v : Byte) (s : State) : State := { s with cartRamBankCount := v }

/-- Where `j` leads to a next state, `k` leads to the same one, but for the RAM-bank count. -/
def RunsAlike (v : Byte) (j k : Result) : Prop := ∀ t, j = .next t → k = .next (t.withCount v)

section
variable {v : Byte} {s : State} {j j' k k' : Result}

theorem runsAlike_next (t : State) : RunsAlike v (.next t) (.next (t.withCount v)) := by
  rintro _ ⟨⟩
  rfl

theorem runsAlike_ite {p : Prop} [Decidable p] (hj : RunsAlike v j j') (hk : RunsAlike v k k') :
    RunsAlike v (if p then j else k) (if p then j' else k') := by
  split
  · exact hj
  · exact hk

theorem runsAlike_whenRunning (hk : RunsAlike v k k') : RunsAlike v (whenRunning s k) (whenRunning (s.withCount v) k') :=
  runsAlike_ite (runsAlike_next _) (runsAlike_ite hk (runsAlike_next _))

theorem runsAlike_whenPhase (p : Phase) (hk : RunsAlike v k k') :
    RunsAlike v (whenPhase p s k) (whenPhase p (s.withCount v) k') :=
  runsAlike_ite (runsAlike_next _) (runsAlike_ite hk (runsAlike_next _))

end

theorem ramEnable_withCount (d v : Byte) (s : State) : ramEnable d (s.withCount v) = (ramEnable d s).withCount v := by
  rw [ramEnable_eq, ramEnable_eq]
  rfl

theorem dividerStep_withCount_inbox (n : Nat) (v : Byte) (l : List Request) (s : State) :
    dividerStep n { s with cartRamBankCount := v, inbox := l } =
      { dividerStep n s with cartRamBankCount := v, inbox := l } := by
  unfold dividerStep
  split <;> rfl

theorem timerStep_withCount_inbox (n : Nat) (v : Byte) (l : List Request) (s : State) :
    timerStep n { s with cartRamBankCount := v, inbox := l } =
      ({ (timerStep n s).1 with cartRamBankCount := v, inbox := l }, (timerStep n s).2) := by
  unfold timerStep
  split
  · split <;> rfl
  · rfl

/-- A TICK reads neither the RAM-bank count nor the port. -/
theorem tickStep_withCount_inbox (n : Nat) (v : Byte) (l : List Request) (s : State) :
    tickStep n { s with cartRamBankCount := v, inbox := l } =
      ({ (tickStep n s).1 with cartRamBankCount := v, inbox := l }, (tickStep n s).2) := by
  cases hen : timerEnabled s.tmc with
  | false => rw [tickStep_disabled hen, tickStep_disabled (by exact hen), dividerStep_withCount_inbox]
  | true =>
    rw [tickStep_enabled hen, tickStep_enabled (by exact hen), dividerStep_withCount_inbox, timerStep_withCount_inbox]

theorem tickStep_withCount (n : Nat) (v : Byte) (s : State) :
    tickStep n (s.withCount v) = ((tickStep n s).1.withCount v, (tickStep n s).2) := by
  have hinbox := tickStep_inbox n s
  refine (tickStep_withCount_inbox n v s.inbox s).trans ?_
  rw [← hinbox]
  rfl

theorem exec_runsAlike {i : Instr} (hload : ∀ src, i ≠ .load (some src)) (v : Byte) (s : State) :
    RunsAlike v (exec i s) (exec i (s.withCount v)) := by
  cases i with
  | load source =>
    cases source with
    | none => exact runsAlike_whenPhase _ (runsAlike_next _)
    | some src => exact absurd rfl (hload src)
  | reset => exact runsAlike_whenPhase _ (runsAlike_next _)
  | rdRom0 _ | rdRomx _ | rdExtram _ | wrExtram _ _ | wrMbc1Hi _ _ | wrMbc1Mode _ _ | wrTmc _ =>
    exact runsAlike_whenRunning (runsAlike_ite (runsAlike_next _) (runsAlike_next _))
  | wrMbc1Ramen _ d | wrMbc2Ramen _ d =>
    refine runsAlike_whenRunning ?_
    rw [ramEnable_withCount]
    exact runsAlike_next _
  | tick cycles =>
    refine runsAlike_whenRunning ?_
    rw [tickStep_withCount]
    exact runsAlike_next _
  | _ => exact runsAlike_whenRunning (runsAlike_next _)

/-- Settles O56. -/
theorem ramBankCountIsNeverRead : Obligations.RamBankCountIsNeverRead :=
  fun _ s t v h hload => exec_runsAlike hload v s t h

/-! ## The interrupt request (R185) -/

theorem tickStep_irq_iff (n : Nat) (s : State) :
    (tickStep n s).2 = true ↔ timerEnabled s.tmc = true ∧ s.tima = 0xFF ∧ s.timerCounter ≤ n := by
  cases hen : timerEnabled s.tmc with
  | false => simp [tickStep_disabled hen]
  | true =>
    have hcases := timerStep_cases n (dividerStep n s)
    simp only [dividerStep_timerCounter, dividerStep_tima] at hcases
    rw [tickStep_enabled hen]
    rcases hcases with ⟨hle, hfull, hstep⟩ | ⟨-, hfull, hstep⟩ | ⟨hlt, hstep⟩ <;> rw [hstep]
    · exact iff_of_true rfl ⟨rfl, hfull, hle⟩
    · exact iff_of_false Bool.false_ne_true fun h => hfull h.2.1
    · exact iff_of_false Bool.false_ne_true fun h => by omega

/-- No instruction but TICK is answered with an interrupt-request bit. -/
theorem exec_ensures_noIrq {i : Instr} (htick : ∀ c, i ≠ .tick c) (s : State) :
    Ensures (exec i s) (fun t => t.response ≠ some (.irq true)) := by
  have hrunning {k : Result} (hk : Ensures k (fun t => t.response ≠ some (.irq true))) :
      Ensures (whenRunning s k) (fun t => t.response ≠ some (.irq true)) := ensures_whenRunning (by simp) hk
  cases i with
  | load source =>
    refine ensures_whenPhase _ (by simp) ?_
    cases source with
    | none => exact ensures_next (by simp)
    | some src => exact ensures_ite (ensures_next (by simp)) (ensures_next (by simp))
  | reset => exact ensures_whenPhase _ (by simp) (ensures_next (by simp))
  | rdRom0 _ | rdRomx _ | rdExtram _ | wrExtram _ _ | wrMbc1Hi _ _ | wrMbc1Mode _ _ | wrTmc _ =>
    exact hrunning (ensures_ite (ensures_next (by simp)) (ensures_next (by simp)))
  | tick c => exact absurd rfl (htick c)
  | _ => exact hrunning (ensures_next (by simp))

/-- Settles O52: on a Ready block the bit of a TICK is `tickStep_irq_iff`'s; elsewhere there is none. -/
theorem irqOnlyFromTimaOverflow : Obligations.IrqOnlyFromTimaOverflow := by
  intro i s t h
  by_cases htick : ∃ c, i = .tick c
  · obtain ⟨cycles, rfl⟩ := htick
    rcases whenRunning_cases h with ⟨hready, hk⟩ | ⟨f, hf, rfl⟩ | ⟨-, hp, rfl⟩
    · cases hk
      simp [State.Ready, hready.1, hready.2, tickStep_irq_iff]
    · simp [hf]
    · simp [hp]
  · have hnot : ∀ c, i ≠ .tick c := fun c hi => htick ⟨c, hi⟩
    exact iff_of_false (exec_ensures_noIrq hnot s t h) fun ⟨c, hi, _⟩ => hnot c hi

end Sys2Proof.Machine
end

section
/-! SUPPORT. Doing a request again: two writes of one byte into one storage, then READs and WRITEs on a Ready block, and their
statements (R59, 20_memory.md section 3). -/

namespace Sys2Proof.Machine

open Sys2Proof.Machine.Claims

/-! ## A write below an address keeps what was written at it, on any list -/

section
variable {a b x : Nat} {u v w : Byte} {m : Memory}

/-- Listing a byte changes nothing just where it is the first entry at its address or above. -/
theorem Memory.put_cons_eq_self :
    Memory.put a v ((x, u) :: m) = (x, u) :: m ↔ (x = a ∧ u = v) ∨ (x < a ∧ Memory.put a v m = m) := by
  simp only [Memory.put]
  split_ifs with hlt heq
  · exact iff_of_false (fun h => absurd (congrArg List.length h) (by simp)) (by omega)
  · subst heq
    simp [eq_comm]
  · have hxa : x < a := by omega
    simp [hxa, Ne.symm heq]

theorem Memory.put_put_below (hba : b < a) (hm : Memory.put a v m = m) :
    Memory.put a v (Memory.put b w m) = Memory.put b w m := by
  induction m with
  | nil => simp [Memory.put] at hm
  | cons c m ih =>
    obtain ⟨x, u⟩ := c
    obtain ⟨rfl, rfl⟩ | ⟨hx, htail⟩ := Memory.put_cons_eq_self.1 hm
    · rw [Memory.put.eq_2 b, if_pos hba]
      exact Memory.put_cons_eq_self.2 (.inr ⟨hba, hm⟩)
    · rw [Memory.put.eq_2 b]
      split_ifs
      · exact Memory.put_cons_eq_self.2 (.inr ⟨hba, hm⟩)
      · exact Memory.put_cons_eq_self.2 (.inr ⟨hba, htail⟩)
      · exact Memory.put_cons_eq_self.2 (.inr ⟨hx, ih htail⟩)

theorem Memory.put_erase_below (hba : b < a) (hm : Memory.put a v m = m) :
    Memory.put a v (Memory.erase b m) = Memory.erase b m := by
  induction m with
  | nil => exact hm
  | cons c m ih =>
    obtain ⟨x, u⟩ := c
    rw [Memory.erase]
    obtain ⟨rfl, rfl⟩ | ⟨hx, htail⟩ := Memory.put_cons_eq_self.1 hm
    · rw [if_neg (by omega)]
      exact Memory.put_cons_eq_self.2 (.inl ⟨rfl, rfl⟩)
    · split_ifs
      · exact ih htail
      · exact Memory.put_cons_eq_self.2 (.inr ⟨hx, ih htail⟩)

theorem Memory.ne_of_mem_erase {c : Host.Cell} (h : c ∈ Memory.erase a m) : c.1 ≠ a := by
  induction m with
  | nil => cases h
  | cons e m ih =>
    obtain ⟨x, u⟩ := e
    simp only [Memory.erase] at h
    split at h
    next => exact ih h
    next hne =>
      rcases List.mem_cons.1 h with rfl | h
      · exact Ne.symm hne
      · exact ih h

theorem Memory.erase_of_forall_ne (h : ∀ c ∈ m, c.1 ≠ a) : Memory.erase a m = m := by
  induction m with
  | nil => rfl
  | cons c m ih =>
    obtain ⟨x, u⟩ := c
    obtain ⟨hx, htail⟩ := List.forall_mem_cons.1 h
    rw [Memory.erase, if_neg (Ne.symm hx), ih htail]

end

theorem Memory.mem_write {dflt : Nat → Option Byte} {a : Nat} {v : Byte} {m : Memory} {c : Host.Cell}
    (h : c ∈ Memory.write dflt a v m) : c = (a, v) ∨ c ∈ m := by
  unfold Memory.write at h
  split at h
  · exact .inr (Memory.mem_erase h)
  · exact Memory.mem_put h

/-- After a write at `a` and one below it, writing at `a` again changes nothing. -/
theorem Memory.write_write_below (dflt : Nat → Option Byte) {a b : Nat} (hba : b < a) (v w : Byte) (m : Memory) :
    Memory.write dflt a v (Memory.write dflt b w (Memory.write dflt a v m)) =
      Memory.write dflt b w (Memory.write dflt a v m) := by
  by_cases hdflt : dflt a = some v
  · have hwrite (l : Memory) : Memory.write dflt a v l = Memory.erase a l := if_pos hdflt
    rw [hwrite, hwrite]
    refine Memory.erase_of_forall_ne fun c hc => ?_
    rcases Memory.mem_write hc with rfl | hc
    · exact Nat.ne_of_lt hba
    · exact Memory.ne_of_mem_erase hc
  · have hwrite (l : Memory) : Memory.write dflt a v l = Memory.put a v l := if_neg hdflt
    have hput := Memory.put_put a v m
    rw [hwrite, hwrite]
    unfold Memory.write
    split
    · exact Memory.put_erase_below hba hput
    · exact Memory.put_put_below hba hput

/-! ## Updates done again -/

theorem State.answer_answer (r r' : Response) (s : State) : (s.answer r).answer r' = s.answer r' := rfl

theorem State.setInt_answer (a : Nat) (v : Byte) (r : Response) (s : State) :
    (s.answer r).setInt a v = (s.setInt a v).answer r := rfl

theorem State.setExt_answer (o : Nat) (v : Byte) (r : Response) (s : State) :
    (s.answer r).setExt o v = (s.setExt o v).answer r := rfl

theorem State.setInt_setInt (a : Nat) (v : Byte) (s : State) : (s.setInt a v).setInt a v = s.setInt a v := by
  simp only [State.setInt, Memory.write_write]

theorem State.setExt_setExt (o : Nat) (v : Byte) (s : State) : (s.setExt o v).setExt o v = s.setExt o v := by
  simp only [State.setExt, Memory.write_write]

/-- WR_ECHO's two stores, done again (R139). -/
theorem State.setInt_pair_again {a b : Nat} (hba : b < a) (v : Byte) (s : State) :
    (((s.setInt a v).setInt b v).setInt a v).setInt b v = (s.setInt a v).setInt b v := by
  have habove : ((s.setInt a v).setInt b v).setInt a v = (s.setInt a v).setInt b v := by
    simp only [State.setInt, Memory.write_write_below intDefault hba]
  rw [habove, State.setInt_setInt]

/-- WR_MBC1_ROMLO's bank, computed again from itself (R112). -/
theorem romLow_again (b d : Byte) :
    max 1 ((BitVec.ofNat 8 (max 1 (b.toNat / 32 * 32 + d.toNat % 32))).toNat / 32 * 32 + d.toNat % 32) =
      max 1 (b.toNat / 32 * 32 + d.toNat % 32) := by
  have hb := b.isLt
  rw [BitVec.toNat_ofNat]
  omega

/-- WR_MBC1_HI's bank in ROM banking mode, computed again from itself (R113). -/
theorem romHigh_again (b d : Byte) :
    max 1 ((BitVec.ofNat 8 (max 1 (b.toNat % 32 + d.toNat / 32 * 32))).toNat % 32 + d.toNat / 32 * 32) =
      max 1 (b.toNat % 32 + d.toNat / 32 * 32) := by
  have hd := d.isLt
  rw [BitVec.toNat_ofNat]
  omega

/-! ## READs and WRITEs done again -/

/-- A READ or a WRITE that did not fault leads from the state it led to to that state. -/
theorem exec_again {i : Instr} {s t : State} (hbus : IsBus i) (hwf : i.wf = true) (hs : s.Ready) (h : exec i s = .next t)
    (hf : t.fault = none) : exec i t = .next t := by
  have ht : t.Ready := ⟨hf, exec_running hs.2 h⟩
  cases i with
  | load _ | reset | tick _ => exact False.elim hbus
  | rdTimer _ | rdInternalHigh _ | rdInternalFe80 _ | rdInternalFe00 _ | rdUnusable _ | rdInternal _ | wrDiv _ | wrTima _
  | wrTma _ | wrUnusable _ _ | wrMbc2RamenIgn _ _ | wrMbc2Nop _ _ | wrNoneNop _ _ | wrMbc2Romlo _ _ =>
    cases (whenRunning_ready hs).symm.trans h
    exact whenRunning_ready ht
  | rdRom0 a =>
    have hin : a.toNat < 0x200000 := by have := a.isLt; omega
    cases ((whenRunning_ready hs).trans (cartRead_inside hin)).symm.trans h
    exact (whenRunning_ready ht).trans (cartRead_inside hin)
  | rdRomx a =>
    by_cases hin : romOffset a s.currentROMBank < 0x200000
    · cases (exec_rdRomx_inside a hs hin).symm.trans h
      exact exec_rdRomx_inside a ht hin
    · cases (exec_rdRomx_outside a hs (Nat.le_of_not_lt hin)).symm.trans h
      cases hf
  | rdExtram a =>
    cases hram : s.ramBankingEnabled with
    | true => cases (exec_rdExtram_enabled a hs hram).symm.trans h; exact exec_rdExtram_enabled a ht hram
    | false => cases (exec_rdExtram_disabled a hs hram).symm.trans h; exact exec_rdExtram_disabled a ht hram
  | wrInternalHigh a d | wrInternalFe80 a d | wrInternalFe00 a d | wrInternal a d =>
    cases (exec_wrInternalRow a d hs (by simp)).symm.trans h
    rw [exec_wrInternalRow a d ht (by simp), State.setInt_answer, State.setInt_setInt, State.answer_answer]
  | wrEcho a d =>
    obtain ⟨hlo, -⟩ := Addr.within_iff.1 hwf
    have hbelow : (echoTarget a).toNat < a.toNat := by rw [toNat_echoTarget (by omega)]; omega
    cases (exec_wrEcho a d hs).symm.trans h
    rw [exec_wrEcho a d ht, State.setInt_answer, State.setInt_answer, State.setInt_pair_again hbelow, State.answer_answer]
  | wrExtram a d =>
    cases hram : s.ramBankingEnabled with
    | true =>
      cases (exec_wrExtram_enabled a d hs hram).symm.trans h
      rw [exec_wrExtram_enabled a d ht hram, State.answer_currentRAMBank, State.setExt_currentRAMBank, State.setExt_answer,
        State.setExt_setExt, State.answer_answer]
    | false =>
      cases (exec_wrExtram_disabled a d hs hram).symm.trans h
      exact exec_wrExtram_disabled a d ht hram
  | wrMbc1Ramen a d | wrMbc2Ramen a d =>
    cases (exec_wrMbc1Ramen a d hs).symm.trans h
    refine (exec_wrMbc1Ramen a d ht).trans ?_
    split_ifs <;> rfl
  | wrMbc1Romlo a d =>
    cases (exec_wrMbc1Romlo a d hs).symm.trans h
    rw [exec_wrMbc1Romlo a d ht, romLow_again]
  | wrMbc1Hi a d =>
    cases hm : s.romBankingModeActive with
    | true =>
      cases (exec_wrMbc1Hi_romBanking a d hs hm).symm.trans h
      rw [exec_wrMbc1Hi_romBanking a d ht hm, romHigh_again]
    | false =>
      cases (exec_wrMbc1Hi_ramBanking a d hs hm).symm.trans h
      exact exec_wrMbc1Hi_ramBanking a d ht hm
  | wrMbc1Mode a d =>
    cases (exec_wrMbc1Mode a d hs).symm.trans h
    refine (exec_wrMbc1Mode a d ht).trans ?_
    split_ifs <;> rfl
  | wrTmc d =>
    cases (exec_wrTmc hs d).symm.trans h
    rw [exec_wrTmc ht]
    simp [State.answer]

/-- A WRITE within the widths is an instruction run on a Ready block, which it leaves Ready on the same cartridge. -/
theorem step_write {s t : State} (hs : s.Ready) {a : Addr} {d : Byte}
    (h : step (s.withRequest (.write a.toNat d.toNat)) = .next t) :
    ∃ i, (∀ u : State, u.cartBankMode = s.cartBankMode → step (u.withRequest (.write a.toNat d.toNat)) = exec i u) ∧
      IsBus i ∧ i.wf = true ∧ WriteCase s.cartBankMode a d i ∧ exec i s = .next t ∧ t.Ready ∧
      t.cartBankMode = s.cartBankMode := by
  obtain ⟨i, hd, hwf, hcase⟩ := writeDispatchIsByRange s.cartBankMode a d
  have hbus := decodeRequest_bus_isBus hd
  have hserve (u : State) (hu : u.cartBankMode = s.cartBankMode) :
      step (u.withRequest (.write a.toNat d.toNat)) = exec i u := step_withRequest (by rw [hu]; exact hd)
  rw [hserve s rfl] at h
  obtain ⟨⟨-, hmode, -⟩, hphase⟩ := exec_keepsCartAndPhase s (by rintro src rfl; exact hbus) (by rintro rfl; exact hbus) t h
  have hfault : t.fault = s.fault := by
    obtain hsame | ⟨rfl, -⟩ | ⟨b, rfl, -⟩ := exec_faultFrom i s t h
    · exact hsame
    · exact False.elim hbus
    · exact absurd hcase writeCase_ne_rdRomx
  exact ⟨i, hserve, hbus, hwf, hcase, h, ⟨hfault.trans hs.1, hphase.trans hs.2⟩, hmode⟩

/-- Settles O45: the second WRITE is the same instruction, and `exec_again` its next state. -/
theorem writesAreIdempotent : Obligations.WritesAreIdempotent := by
  intro s t addr data hs haddr hdata h
  obtain ⟨a, rfl⟩ := exists_addr haddr
  obtain ⟨d, rfl⟩ := exists_byte hdata
  obtain ⟨i, hserve, hbus, hwf, -, hexec, ht, hmode⟩ := step_write hs h
  rw [hserve t hmode]
  exact exec_again hbus hwf hs hexec ht.1

/-! ## READs write nothing -/

/-- The instruction is a READ. -/
def IsRead : Instr → Prop
  | .rdTimer _ | .rdInternalHigh _ | .rdInternalFe80 _ | .rdInternalFe00 _ | .rdUnusable _ | .rdRom0 _ | .rdRomx _
  | .rdExtram _ | .rdInternal _ => True
  | _ => False

theorem isRead_of_readCase {a : Addr} {i : Instr} (h : ReadCase a i) : IsRead i := by
  simp only [ReadCase] at h
  split_ifs at h
  case neg => rcases h with rfl | rfl | rfl | rfl <;> trivial
  all_goals cases h; trivial

/-- `t` is `s` with a refusal or a fault recorded. -/
def TurnedAway (s t : State) : Prop := (∃ w, t = s.recordRefusal w) ∨ ∃ f, t = s.recordFault f

/-- What O38 says of a READ's next state, where it is answered with no byte. -/
theorem onlyAnswered_of_turnedAway {s t : State} (h : TurnedAway s t) :
    t = { s with response := t.response, fault := t.fault, refusals := t.refusals } ∧
      ∀ v, t.response ≠ some (.byte v) := by
  obtain ⟨w, rfl⟩ | ⟨f, rfl⟩ := h
  · exact ⟨rfl, fun v hv => by cases hv⟩
  · exact ⟨rfl, fun v hv => by cases hv⟩

theorem exec_read_ensures {i : Instr} (hi : IsRead i) (s : State) :
    Ensures (exec i s) (fun t => (s.Ready ∧ ∃ v, t = s.answer (.byte v)) ∨ TurnedAway s t) := by
  have hrunning {k : Result}
      (hk : s.Ready → Ensures k (fun t => (s.Ready ∧ ∃ v, t = s.answer (.byte v)) ∨ TurnedAway s t)) :
      Ensures (whenRunning s k) (fun t => (s.Ready ∧ ∃ v, t = s.answer (.byte v)) ∨ TurnedAway s t) :=
    ensures_whenRunning_ready (fun w => .inr (.inl ⟨w, rfl⟩)) hk
  cases i with
  | rdTimer _ | rdInternalHigh _ | rdInternalFe80 _ | rdInternalFe00 _ | rdUnusable _ | rdInternal _ =>
    exact hrunning fun hs => ensures_next (.inl ⟨hs, _, rfl⟩)
  | rdRom0 _ | rdRomx _ =>
    exact hrunning fun hs => ensures_ite (ensures_next (.inl ⟨hs, _, rfl⟩)) (ensures_next (.inr (.inr ⟨_, rfl⟩)))
  | rdExtram _ =>
    exact hrunning fun hs => ensures_ite (ensures_next (.inl ⟨hs, _, rfl⟩)) (ensures_next (.inl ⟨hs, _, rfl⟩))
  | _ => exact False.elim hi

/-- Settles O38: a READ answered with a byte is an instruction that only answered, so that `exec_again` applies; every other
READ is turned away. -/
theorem readsHaveNoSideEffect : Obligations.ReadsHaveNoSideEffect := by
  intro s t addr data rest hinbox hstep
  have hturned (h : TurnedAway { s with inbox := rest } t) :
      t = { s with inbox := rest, response := t.response, fault := t.fault, refusals := t.refusals } ∧
        ∀ v, t.response ≠ some (.byte v) := onlyAnswered_of_turnedAway h
  cases hd : decodeRequest s.cartBankMode (.bus .read addr data) with
  | ok i =>
    have hexec := (step_ok hinbox hd).symm.trans hstep
    obtain ⟨a, -, hwf, hcase⟩ := decodeRequest_read_ok hd
    obtain ⟨hs, v, rfl⟩ | haway := exec_read_ensures (isRead_of_readCase hcase) _ t hexec
    · refine ⟨rfl, fun _ _ => ⟨rfl, rfl, fun data' => (step_withRequest (i := i) ?_).trans ?_⟩⟩
      · exact hd
      · exact exec_again (decodeRequest_bus_isBus hd) hwf hs hexec hs.1
    · exact (hturned haway).imp_right fun hnot v hv => absurd hv (hnot v)
  | error e =>
    have haway := rejectRequest_ensures (P := TurnedAway { s with inbox := rest }) (s := { s with inbox := rest }) _
      (fun w => .inl ⟨w, rfl⟩) (fun x _ => .inr ⟨_, rfl⟩) t ((step_error hinbox hd).symm.trans hstep)
    exact (hturned haway).imp_right fun hnot v hv => absurd hv (hnot v)

end Sys2Proof.Machine
end

section
/-! SUPPORT. What a READ is answered, as one function of the state and the address, and which of its inputs a storing WRITE
changes (20_memory.md section 5, R130, R131). -/

namespace Sys2Proof.Machine

open Sys2Proof.Machine.Claims

/-- The response to a READ of `a` on a Ready block, by the ranges of R130. -/
def State.readResponse (s : State) (a : Addr) : Response :=
  if a.toNat < 0x4000 then .byte (s.cartByte a.toNat)
  else if a.toNat < 0x8000 then
    if romOffset a s.currentROMBank < 0x200000 then .byte (s.cartByte (romOffset a s.currentROMBank))
    else .fault (.romRange a s.currentROMBank (romOffset a s.currentROMBank))
  else if 0xA000 ≤ a.toNat ∧ a.toNat < 0xC000 then
    if s.ramBankingEnabled then .byte (s.extByte (extOffset a s.currentRAMBank)) else .byte 0xFF
  else if 0xFEA0 ≤ a.toNat ∧ a.toNat < 0xFF00 then .byte 0xFF
  else if 0xFF04 ≤ a.toNat ∧ a.toNat < 0xFF08 then .byte (timerRegister a s)
  else .byte (s.intByte a.toNat)

/-- The rows of a READ answer as `readResponse` says. -/
theorem exec_read_response {a : Addr} {i : Instr} (hcase : ReadCase a i) (hwf : i.wf = true) {s : State} (h : s.Ready) :
    ∃ u, exec i s = .next u ∧ u.response = some (s.readResponse a) := by
  unfold ReadCase at hcase
  unfold State.readResponse
  split_ifs at hcase ⊢ with h0 hx hrom hwin hram hunus htimer
  · cases hcase; exact ⟨_, exec_rdRom0 a h hwf, rfl⟩
  · cases hcase; exact ⟨_, exec_rdRomx_inside a h hrom, rfl⟩
  · cases hcase; exact ⟨_, exec_rdRomx_outside a h (Nat.le_of_not_lt hrom), rfl⟩
  · cases hcase; exact ⟨_, exec_rdExtram_enabled a h hram, rfl⟩
  · cases hcase; exact ⟨_, exec_rdExtram_disabled a h (by simpa using hram), rfl⟩
  · cases hcase; exact ⟨_, exec_rdUnusable a h, rfl⟩
  · cases hcase; exact ⟨_, exec_rdTimer a h, rfl⟩
  · exact ⟨_, exec_rdInternalRow a h (by simpa using hcase), rfl⟩

theorem step_read_response {s : State} (h : s.Ready) (a : Addr) :
    ∃ u, step (s.withRequest (.read a.toNat)) = .next u ∧ u.response = some (s.readResponse a) := by
  obtain ⟨i, hwf, hcase, hdecode, -⟩ := exists_read a
  obtain ⟨u, hu, hresponse⟩ := exec_read_response hcase hwf h
  exact ⟨u, (step_withRequest (hdecode _)).trans hu, hresponse⟩

/-- States that agree on the cartridge, the bank registers, and what the address itself selects of external RAM, the timer and
internal memory answer alike. -/
theorem State.readResponse_congr {s t : State} {b : Addr} (hcart : t.cartBytes = s.cartBytes)
    (hrom : t.currentROMBank = s.currentROMBank) (hen : t.ramBankingEnabled = s.ramBankingEnabled)
    (hbank : t.currentRAMBank = s.currentRAMBank)
    (hext : 0xA000 ≤ b.toNat → b.toNat < 0xC000 →
      t.extByte (extOffset b s.currentRAMBank) = s.extByte (extOffset b s.currentRAMBank))
    (htimer : 0xFF04 ≤ b.toNat → b.toNat < 0xFF08 → timerRegister b t = timerRegister b s)
    (hint : t.intByte b.toNat = s.intByte b.toNat) : t.readResponse b = s.readResponse b := by
  have hbyte (x : Nat) : t.cartByte x = s.cartByte x := by rw [State.cartByte, hcart, State.cartByte]
  unfold State.readResponse
  rw [hrom, hen, hbank, hint, hbyte, hbyte]
  split_ifs with h0 hx hin hwin hram hunus htim
  · rfl
  · rfl
  · rfl
  · rw [hext hwin.1 hwin.2]
  · rfl
  · rfl
  · rw [htimer htim.1 htim.2]
  · rfl

/-- READs of `a` and of the addresses that `P` names, in the state `t` after a WRITE of `d` to `a` in `s`: the first returns
`d`, the others what they returned in `s`. -/
def StoredAt (s t : State) (a : Addr) (d : Byte) (P : Addr → Prop) : Prop :=
  t.readResponse a = .byte d ∧ ∀ b, b ≠ a → P b → t.readResponse b = s.readResponse b

theorem storedAt_mono {s t : State} {a : Addr} {d : Byte} {P Q : Addr → Prop} (h : StoredAt s t a d P)
    (hPQ : ∀ b, b ≠ a → Q b → P b) : StoredAt s t a d Q :=
  ⟨h.1, fun b hba hb => h.2 b hba (hPQ b hba hb)⟩

/-! ## The WRITEs that store their data (R63) -/

section
variable {s : State} {a : Addr} (d : Byte)

/-- A store of internal memory at `a` and, where the address is mirrored, at `x` too. -/
theorem storedAt_internal (ha : 0x8000 ≤ a.toNat) (hwin : ¬ (0xA000 ≤ a.toNat ∧ a.toNat < 0xC000))
    (hunus : ¬ (0xFEA0 ≤ a.toNat ∧ a.toNat < 0xFF00)) (htimer : ¬ (0xFF04 ≤ a.toNat ∧ a.toNat < 0xFF08)) (m : Memory)
    (x : Nat) (hm : ∀ y, ({ s with internal := m } : State).intByte y = if y = a.toNat ∨ y = x then d else s.intByte y) :
    StoredAt s (({ s with internal := m } : State).answer .done) a d (fun b => b.toNat ≠ x) := by
  refine ⟨?_, fun b hba hbx => State.readResponse_congr rfl rfl rfl rfl (fun _ _ => rfl) (fun _ _ => rfl) ?_⟩
  · rw [State.readResponse, if_neg (by omega), if_neg (by omega), if_neg hwin, if_neg hunus, if_neg htimer,
      State.answer_intByte, hm, if_pos (.inl rfl)]
  · have hne : ¬ (b.toNat = a.toNat ∨ b.toNat = x) := by
      rintro (h | h)
      · exact hba (BitVec.eq_of_toNat_eq h)
      · exact hbx h
    rw [State.answer_intByte, hm, if_neg hne]

theorem storedAt_external (hlo : 0xA000 ≤ a.toNat) (hhi : a.toNat < 0xC000) (hram : s.ramBankingEnabled = true) :
    StoredAt s ((s.setExt (extOffset a s.currentRAMBank) d).answer .done) a d (fun _ => True) := by
  refine ⟨?_, fun b hba _ => State.readResponse_congr rfl rfl rfl rfl (fun hb _ => ?_) (fun _ _ => rfl) rfl⟩
  · rw [State.readResponse, if_neg (by omega), if_neg (by omega), if_pos ⟨hlo, hhi⟩, State.answer_ramBankingEnabled,
      State.setExt_ramBankingEnabled, if_pos hram, State.answer_extByte, State.answer_currentRAMBank,
      State.setExt_currentRAMBank, State.extByte_setExt, if_pos rfl]
  · have hne : extOffset b s.currentRAMBank ≠ extOffset a s.currentRAMBank := by
      intro h
      have hab : b.toNat - 0xA000 = a.toNat - 0xA000 := Nat.add_right_cancel h
      exact hba (BitVec.eq_of_toNat_eq (by omega))
    rw [State.answer_extByte, State.extByte_setExt, if_neg hne]

/-- A WRITE of TIMA, TMA or TMC: the register at its own address has the datum, those at the other addresses are kept. -/
theorem storedAt_timer {t : State} {tima tma tmc : Byte} {counter : Int}
    (ht : t = ({ s with tima := tima, tma := tma, tmc := tmc, timerCounter := counter } : State).answer .done)
    (hlo : 0xFF05 ≤ a.toNat) (hhi : a.toNat < 0xFF08) (h5 : tima = if a.toNat = 0xFF05 then d else s.tima)
    (h6 : tma = if a.toNat = 0xFF06 then d else s.tma) (h7 : tmc = if a.toNat = 0xFF07 then d else s.tmc) :
    StoredAt s t a d (fun _ => True) := by
  have hregisters (b : Addr) := timerRegister_of_toNat b t
  subst ht
  refine ⟨?_, fun b hba _ => State.readResponse_congr rfl rfl rfl rfl (fun _ _ => rfl) (fun hblo hbhi => ?_) rfl⟩
  · rw [State.readResponse, if_neg (by omega), if_neg (by omega), if_neg (by omega), if_neg (by omega), if_pos (by omega)]
    obtain ⟨-, hr5, hr6, hr7⟩ := hregisters a
    have haddr : a.toNat = 0xFF05 ∨ a.toNat = 0xFF06 ∨ a.toNat = 0xFF07 := by omega
    rcases haddr with haddr | haddr | haddr
    · rw [hr5 haddr]; exact congrArg Response.byte (h5.trans (if_pos haddr))
    · rw [hr6 haddr]; exact congrArg Response.byte (h6.trans (if_pos haddr))
    · rw [hr7 haddr]; exact congrArg Response.byte (h7.trans (if_pos haddr))
  · obtain ⟨hr4, hr5, hr6, hr7⟩ := hregisters b
    obtain ⟨hs4, hs5, hs6, hs7⟩ := timerRegister_of_toNat b s
    have hne {n : Nat} (hb : b.toNat = n) : a.toNat ≠ n := fun ha => hba (BitVec.eq_of_toNat_eq (hb.trans ha.symm))
    have haddr : b.toNat = 0xFF04 ∨ b.toNat = 0xFF05 ∨ b.toNat = 0xFF06 ∨ b.toNat = 0xFF07 := by omega
    rcases haddr with haddr | haddr | haddr | haddr
    · rw [hr4 haddr, hs4 haddr]; rfl
    · rw [hr5 haddr, hs5 haddr]; exact h5.trans (if_neg (hne haddr))
    · rw [hr6 haddr, hs6 haddr]; exact h6.trans (if_neg (hne haddr))
    · rw [hr7 haddr, hs7 haddr]; exact h7.trans (if_neg (hne haddr))

/-- A WRITE to `a` of the echo region is mirrored into `b` (R139). -/
def Mirrors (a b : Nat) : Prop := 0xE000 ≤ a ∧ a < 0xFE00 ∧ b = a - 0x2000

theorem exec_write_storedAt {m : BankMode} {t : State} {i : Instr} (hs : s.Ready) (hcase : WriteCase m a d i)
    (hstores : StoresData s a.toNat) (h : exec i s = .next t) : StoredAt s t a d (fun b => ¬ Mirrors a.toNat b.toNat) := by
  have ha := a.isLt
  have hlow : ¬ a.toNat < 0x8000 := by unfold StoresData at hstores; omega
  have hall {u : State} (hu : StoredAt s u a d (fun _ => True)) : StoredAt s u a d (fun b => ¬ Mirrors a.toNat b.toNat) :=
    storedAt_mono hu fun _ _ _ => trivial
  unfold StoresData at hstores
  rw [WriteCase, if_neg hlow] at hcase
  split_ifs at hcase with hext hecho hdiv htmc hunus htima htma
  · subst hcase
    have hram : s.ramBankingEnabled = true := by
      rcases hstores with hrange | ⟨-, -, hram⟩ | hrange | hrange
      · omega
      · exact hram
      · omega
      · omega
    cases (exec_wrExtram_enabled a d hs hram).symm.trans h
    exact hall (storedAt_external d hext.1 hext.2 hram)
  · subst hcase
    have htarget := toNat_echoTarget (a := a) (by omega)
    cases (exec_wrEcho a d hs).symm.trans h
    have hbytes (y : Nat) : ((s.setInt a.toNat d).setInt (echoTarget a).toNat d).intByte y =
        if y = a.toNat ∨ y = (echoTarget a).toNat then d else s.intByte y := by
      rw [State.intByte_setInt, State.intByte_setInt, ← ite_or]
      simp only [or_comm]
    have hstored := storedAt_internal (s := s) d (by omega) hext (by omega) (by omega)
      ((s.setInt a.toNat d).setInt (echoTarget a).toNat d).internal (echoTarget a).toNat hbytes
    exact storedAt_mono hstored fun b _ hb hbx => hb ⟨hecho.1, hecho.2, hbx.trans htarget⟩
  · omega
  · subst hcase
    cases (exec_wrTmc hs d).symm.trans h
    exact hall (storedAt_timer (s := s) d rfl (by omega) (by omega) (by simp [htmc]) (by simp [htmc]) (by simp [htmc]))
  · omega
  · subst hcase
    cases (exec_wrTima d hs).symm.trans h
    exact hall (storedAt_timer (tima := d) (tma := s.tma) (tmc := s.tmc) d rfl (by omega) (by omega)
      (by simp [htima]) (by simp [htima]) (by simp [htima]))
  · subst hcase
    cases (exec_wrTma d hs).symm.trans h
    exact hall (storedAt_timer (tima := s.tima) (tma := d) (tmc := s.tmc) d rfl (by omega) (by omega)
      (by simp [htma]) (by simp [htma]) (by simp [htma]))
  · cases (exec_wrInternalRow a d hs (by simpa using hcase)).symm.trans h
    have hbytes (y : Nat) : (s.setInt a.toNat d).intByte y =
        if y = a.toNat ∨ y = a.toNat then d else s.intByte y := by
      simp only [or_self, State.intByte_setInt]
    have hstored := storedAt_internal (s := s) d (by omega) hext hunus (by omega) (s.setInt a.toNat d).internal a.toNat hbytes
    exact storedAt_mono hstored fun b hba _ hab => hba (BitVec.eq_of_toNat_eq hab)

end

/-- Settles O46: `step_write`'s instruction stores at its address (`exec_write_storedAt`), and every READ is answered with
`readResponse`. -/
theorem readFindsTheLastWrite : Obligations.ReadFindsTheLastWrite := by
  intro s t addr data hs hstores hdata h
  have haddr : addr ≤ 0xFFFF := by unfold StoresData at hstores; omega
  obtain ⟨a, rfl⟩ := exists_addr haddr
  obtain ⟨d, rfl⟩ := exists_byte hdata
  obtain ⟨i, -, -, -, hcase, hexec, ht, -⟩ := step_write hs h
  obtain ⟨hself, hothers⟩ := exec_write_storedAt d hs hcase hstores hexec
  refine ⟨?_, fun other hother hne hmirror => ?_⟩
  · obtain ⟨u, hu, hresponse⟩ := step_read_response ht a
    exact ⟨u, hu, by rw [hresponse, hself, BitVec.ofNat_toNat, BitVec.setWidth_eq]⟩
  · obtain ⟨b, rfl⟩ := exists_addr hother
    obtain ⟨u, hu, hresponse⟩ := step_read_response ht b
    obtain ⟨v, hv, hresponse'⟩ := step_read_response hs b
    exact ⟨u, v, hu, hv, by rw [hresponse, hresponse', hothers b (fun hba => hne (hba ▸ rfl)) hmirror]⟩

end Sys2Proof.Machine
end

section
/-! SUPPORT. Runs of TICKs: the state after `k` of them, and from it the rates of DIV and TIMA (R162 to R165). -/

namespace Sys2Proof.Machine

open Sys2Proof.Machine.Claims

/-- The state after one TICK of `n` cycles, answered. -/
def tickOnce (n : Nat) (s : State) : State := (tickStep n s).1.answer (.irq (tickStep n s).2)

theorem tickOnce_inbox (n : Nat) (l : List Request) (s : State) :
    tickOnce n { s with inbox := l } = { tickOnce n s with inbox := l } := by
  have hcount := tickStep_cartRamBankCount n s
  have htick : tickStep n { s with inbox := l } = ({ (tickStep n s).1 with inbox := l }, (tickStep n s).2) := by
    refine (tickStep_withCount_inbox n s.cartRamBankCount l s).trans ?_
    rw [← hcount]
  rw [tickOnce, htick]
  rfl

theorem tickOnce_ready {s : State} (h : s.Ready) (n : Nat) : (tickOnce n s).Ready := by
  simpa [tickOnce, State.Ready] using h

/-- `k` TICKs at the port lead to the `k`-th iterate, with the port empty. -/
theorem run_ticks {n : Nat} (hn : n ≤ 0xFFFF) (k : Nat) {s : State} (h : s.Ready) :
    core.run k (withTicks n k s) = .next (withTicks n 0 ((tickOnce n)^[k] s)) := by
  obtain ⟨c, rfl⟩ := exists_addr hn
  induction k generalizing s with
  | zero => rfl
  | succ k ih =>
    have hready : (withTicks c.toNat k s).Ready := h
    have hstep : step (withTicks c.toNat (k + 1) s) = .next (withTicks c.toNat k (tickOnce c.toNat s)) := by
      rw [step_ok (rest := List.replicate k (.tick c.toNat)) rfl (decodesAlways_tick c _)]
      refine (exec_tick hready c).trans ?_
      exact congrArg Host.Outcome.next (tickOnce_inbox c.toNat (List.replicate k (.tick c.toNat)) s)
    rw [run_succ hstep, ih (tickOnce_ready h _), Function.iterate_succ_apply]

theorem lt_ceil_iff {c n : Nat} (hn : 1 ≤ n) (j : Nat) : j < (c + (n - 1)) / n ↔ j * n < c := by
  rw [← Nat.succ_le_iff, Nat.le_div_iff_mul_le hn, Nat.succ_mul]
  omega

/-- The last TICK before the quotient is reached: `k` is at least 1, and `k - 1` TICKs stay below `c`. -/
theorem exists_ceil_eq_succ {c n : Nat} (hn : 1 ≤ n) (hc : 1 ≤ c) :
    ∃ j, (c + (n - 1)) / n = j + 1 ∧ j * n < c ∧ c ≤ j * n + n := by
  have hpos : 0 < (c + (n - 1)) / n := (lt_ceil_iff hn 0).2 (by omega)
  obtain ⟨j, hj⟩ := Nat.exists_eq_succ_of_ne_zero hpos.ne'
  have hlt : j * n < c := (lt_ceil_iff hn j).1 (by omega)
  have hge : ¬ (j + 1) * n < c := fun h => absurd ((lt_ceil_iff hn (j + 1)).2 h) (by omega)
  rw [Nat.succ_mul] at hge
  exact ⟨j, hj, hlt, by omega⟩

/-! ## DIV -/

theorem tickOnce_divider (n : Nat) (s : State) :
    (255 ≤ s.dividerCounter + n ∧ (tickOnce n s).dividerCounter = 0 ∧ (tickOnce n s).div = s.div + 1) ∨
      (s.dividerCounter + n < 255 ∧ (tickOnce n s).dividerCounter = s.dividerCounter + n ∧ (tickOnce n s).div = s.div) := by
  rw [tickOnce, State.answer_dividerCounter, State.answer_div, tickStep_dividerCounter, tickStep_div]
  rcases dividerStep_cases n s with ⟨hge, hstep⟩ | ⟨hlt, hstep⟩ <;> rw [hstep]
  · exact .inl ⟨hge, rfl, rfl⟩
  · exact .inr ⟨hlt, rfl, rfl⟩

/-- Below the threshold the counter adds up, and DIV stays. -/
theorem divider_iterate {n : Nat} {s : State} (hs : s.dividerCounter = 0) {j : Nat} (hj : j * n < 255) :
    ((tickOnce n)^[j] s).div = s.div ∧ ((tickOnce n)^[j] s).dividerCounter = (j * n : Nat) := by
  induction j with
  | zero => exact ⟨rfl, by simpa using hs⟩
  | succ j ih =>
    rw [Nat.succ_mul] at hj
    obtain ⟨hdiv, hcounter⟩ := ih (by omega)
    rw [Function.iterate_succ_apply', Nat.succ_mul]
    rcases tickOnce_divider n ((tickOnce n)^[j] s) with ⟨hge, -⟩ | ⟨-, hcounter', hdiv'⟩
    · omega
    · exact ⟨hdiv'.trans hdiv, by omega⟩

/-- Settles O53: the iterates below the threshold, and the one that reaches it. -/
theorem dividerRate : Obligations.DividerRate := by
  intro n s hn hmax hready hs
  refine ⟨fun j hj => ⟨_, run_ticks hmax j hready, divider_iterate hs ((lt_ceil_iff hn j).1 hj)⟩,
    _, run_ticks hmax _ hready, ?_⟩
  obtain ⟨j, hk, hlt, hge⟩ := exists_ceil_eq_succ (c := 255) hn (by omega)
  obtain ⟨hdiv, hcounter⟩ := divider_iterate hs hlt
  rw [hk, Function.iterate_succ_apply']
  rcases tickOnce_divider n ((tickOnce n)^[j] s) with ⟨-, hcounter', hdiv'⟩ | ⟨hbelow, -⟩
  · exact ⟨hdiv'.trans (by rw [hdiv]), hcounter'⟩
  · omega

/-! ## TIMA -/

theorem tickOnce_timer (n : Nat) {s : State} (hon : timerEnabled s.tmc = true) :
    (s.timerCounter ≤ n ∧ (tickOnce n s).timerCounter = freqTable (frequencySelect s.tmc) ∧
        (tickOnce n s).tima = if s.tima = 0xFF then s.tma else s.tima + 1) ∨
      ((n : Int) < s.timerCounter ∧ (tickOnce n s).timerCounter = s.timerCounter - n ∧ (tickOnce n s).tima = s.tima) := by
  have hcases := timerStep_cases n (dividerStep n s)
  simp only [dividerStep_timerCounter, dividerStep_tima, dividerStep_tma, dividerStep_tmc] at hcases
  rw [tickOnce, State.answer_timerCounter, State.answer_tima, tickStep_enabled hon]
  rcases hcases with ⟨hle, hfull, hstep⟩ | ⟨hle, hfull, hstep⟩ | ⟨hlt, hstep⟩ <;> rw [hstep]
  · exact .inl ⟨hle, rfl, (if_pos hfull).symm⟩
  · exact .inl ⟨hle, rfl, (if_neg hfull).symm⟩
  · exact .inr ⟨hlt, rfl, rfl⟩

/-- No TICK writes TMA or TMC. -/
theorem tickOnce_iterate_kept (n j : Nat) (s : State) :
    ((tickOnce n)^[j] s).tma = s.tma ∧ ((tickOnce n)^[j] s).tmc = s.tmc := by
  induction j with
  | zero => exact ⟨rfl, rfl⟩
  | succ j ih => rw [Function.iterate_succ_apply']; simpa [tickOnce] using ih

/-- While it lasts the countdown loses the cycles, and TIMA stays. -/
theorem timer_iterate {n : Nat} {s : State} (hon : timerEnabled s.tmc = true) {j : Nat} (hj : (j * n : Nat) < s.timerCounter) :
    ((tickOnce n)^[j] s).tima = s.tima ∧ ((tickOnce n)^[j] s).timerCounter = s.timerCounter - (j * n : Nat) := by
  induction j with
  | zero => simp
  | succ j ih =>
    rw [Nat.succ_mul] at hj
    obtain ⟨htima, hcounter⟩ := ih (by omega)
    obtain ⟨-, htmc⟩ := tickOnce_iterate_kept n j s
    rw [Function.iterate_succ_apply', Nat.succ_mul]
    rcases tickOnce_timer n (s := (tickOnce n)^[j] s) (by rw [htmc, hon]) with ⟨hle, -⟩ | ⟨-, hcounter', htima'⟩
    · omega
    · exact ⟨htima'.trans htima, by omega⟩

/-- Settles O54: the iterates before the countdown is used up, and the one that uses it up. -/
theorem timaRate : Obligations.TimaRate := by
  intro n s hn hmax hready hon hs
  refine ⟨fun j hj => ⟨_, run_ticks hmax j hready, timer_iterate hon ?_⟩, _, run_ticks hmax _ hready, ?_⟩
  · rw [hs]
    exact_mod_cast (lt_ceil_iff hn j).1 hj
  obtain ⟨j, hk, hlt, hge⟩ := exists_ceil_eq_succ hn (freqTable_pos (frequencySelect s.tmc))
  obtain ⟨htima, hcounter⟩ := timer_iterate (j := j) (n := n) hon (by rw [hs]; exact_mod_cast hlt)
  obtain ⟨htma, htmc⟩ := tickOnce_iterate_kept n j s
  rw [hk, Function.iterate_succ_apply']
  rcases tickOnce_timer n (s := (tickOnce n)^[j] s) (by rw [htmc, hon]) with ⟨-, hcounter', htima'⟩ | ⟨hleft, -⟩
  · exact ⟨htima'.trans (by rw [htima, htma]), hcounter'.trans (by rw [htmc, hs])⟩
  · omega

end Sys2Proof.Machine
end

section
/-! SUPPORT. The pseudo-requests: expansions of one WRITE, those of two, and those that nothing answers to but `done`
(30_encoding.md section 5). -/

namespace Sys2Proof.Machine

open Sys2Proof.Machine.Claims

section
variable {s t : State} {p : Pseudo}

theorem expands_of_single {r : Request} {i : Instr} (hp : p.expand = [r]) (hd : decodeRequest s.cartBankMode r = .ok i)
    (he : exec i s = .next (t.answer .done)) : Expands p s t := by
  rw [Expands, hp]
  exact run_succ ((step_withRequest hd).trans he)

theorem expands_of_pair {r r' : Request} {i j : Instr} {u : State} (hp : p.expand = [r, r'])
    (hd : decodeRequest s.cartBankMode r = .ok i) (hd' : decodeRequest u.cartBankMode r' = .ok j)
    (he : ∀ inbox, exec i { s with inbox := inbox } = .next { u with inbox := inbox })
    (he' : exec j { u with inbox := s.inbox } = .next (t.answer .done)) : Expands p s t := by
  have hfirst : step (s.withRequests [r, r']) = .next ({ u with inbox := r' :: s.inbox } : State) :=
    (step_withRequest (s := s.withRequest r') hd).trans (he _)
  have hsecond : step ({ u with inbox := r' :: s.inbox } : State) = .next (t.answer .done) :=
    (step_withRequest (s := { u with inbox := s.inbox }) hd').trans he'
  rw [Expands, hp]
  exact (run_succ hfirst).trans (run_succ hsecond)

end

/-! ## Requests that change nothing -/

/-- On a Ready block of bank mode `m` the request is answered `done` and nothing else. -/
def Ignored (m : BankMode) (r : Request) : Prop :=
  ∀ s : State, s.Ready → s.cartBankMode = m → step (s.withRequest r) = .next (s.answer .done)

theorem run_ignored {m : BankMode} (r : Request) (rs : List Request) (hrs : ∀ q ∈ r :: rs, Ignored m q) {s : State}
    (hs : s.Ready) (hm : s.cartBankMode = m) :
    core.run (rs.length + 1) (s.withRequests (r :: rs)) = .next (s.answer .done) := by
  induction rs generalizing r s with
  | nil => exact run_succ (hrs r (by simp) s hs hm)
  | cons q rs ih =>
    have hstep := hrs r (by simp) (s.withRequests (q :: rs)) hs hm
    rw [State.withRequests_cons, run_succ hstep]
    exact ih q (fun x hx => hrs x (List.mem_cons_of_mem _ hx)) (s := s.answer .done) hs hm

theorem ignored_none {a : Addr} (d : Byte) (ha : a.toNat < 0x8000) : Ignored .none (.write a.toNat d.toNat) := by
  rintro s hs hm
  rw [step_withRequest (i := .wrNoneNop a d) (by rw [hm]; exact decode_wrNoneNop (Addr.within_iff.2 (by omega)))]
  exact whenRunning_ready hs

theorem ignored_mbc2 {a : Addr} (d : Byte) (hlo : 0x4000 ≤ a.toNat) (hhi : a.toNat < 0x8000) :
    Ignored .mbc2 (.write a.toNat d.toNat) := by
  rintro s hs hm
  rw [step_withRequest (i := .wrMbc2Nop a d) (by rw [hm]; exact decode_wrMbc2Nop (Addr.within_iff.2 (by omega)))]
  exact whenRunning_ready hs

theorem expands_of_ignored {m : BankMode} {s : State} {p : Pseudo} {r : Request} {rs : List Request} (hp : p.expand = r :: rs)
    (hs : s.Ready) (hm : s.cartBankMode = m) (hrs : ∀ q ∈ r :: rs, Ignored m q) : Expands p s s := by
  rw [Expands, hp]
  exact run_ignored r rs hrs hs hm

/-- Without a controller every expansion into ROM-range WRITEs is ignored (R119). -/
theorem expands_none {s : State} (hs : s.Ready) (hm : s.cartBankMode = .none) (n : Byte) :
    ∀ p ∈ [Pseudo.enram, .disram, .rommode, .rammode, .romlo n, .romhi n, .rambank n], Expands p s s := by
  have hmode (d : Byte) : Ignored .none (.write 0x6000 d.toNat) := ignored_none (a := 0x6000) d (by decide)
  have hhigh : Ignored .none (.write 0x4000 n.toNat) := ignored_none (a := 0x4000) n (by decide)
  have hlow : Ignored .none (.write 0x2000 n.toNat) := ignored_none (a := 0x2000) n (by decide)
  have henable (d : Byte) : Ignored .none (.write 0x0000 d.toNat) := ignored_none (a := 0x0000) d (by decide)
  simp only [List.forall_mem_cons]
  exact ⟨expands_of_ignored rfl hs hm (List.forall_mem_singleton.2 (henable 0x0A)),
    expands_of_ignored rfl hs hm (List.forall_mem_singleton.2 (henable 0x00)),
    expands_of_ignored rfl hs hm (List.forall_mem_singleton.2 (hmode 0x00)),
    expands_of_ignored rfl hs hm (List.forall_mem_singleton.2 (hmode 0x01)),
    expands_of_ignored rfl hs hm (List.forall_mem_singleton.2 hlow),
    expands_of_ignored rfl hs hm (List.forall_mem_singleton.2 hhigh),
    expands_of_ignored rfl hs hm (List.forall_mem_cons.2 ⟨hmode 0x01, List.forall_mem_singleton.2 hhigh⟩),
    List.forall_mem_nil _⟩

/-- On MBC2 the windows from 0x4000 are ignored (R118). -/
theorem expands_mbc2 {s : State} (hs : s.Ready) (hm : s.cartBankMode = .mbc2) (n : Byte) :
    ∀ p ∈ [Pseudo.rommode, .rammode, .romhi n, .rambank n], Expands p s s := by
  have hmode (d : Byte) : Ignored .mbc2 (.write 0x6000 d.toNat) := ignored_mbc2 (a := 0x6000) d (by decide) (by decide)
  have hhigh : Ignored .mbc2 (.write 0x4000 n.toNat) := ignored_mbc2 (a := 0x4000) n (by decide) (by decide)
  simp only [List.forall_mem_cons]
  exact ⟨expands_of_ignored rfl hs hm (List.forall_mem_singleton.2 (hmode 0x00)),
    expands_of_ignored rfl hs hm (List.forall_mem_singleton.2 (hmode 0x01)),
    expands_of_ignored rfl hs hm (List.forall_mem_singleton.2 hhigh),
    expands_of_ignored rfl hs hm (List.forall_mem_cons.2 ⟨hmode 0x01, List.forall_mem_singleton.2 hhigh⟩),
    List.forall_mem_nil _⟩

/-! ## Requests with an effect -/

section
variable {s : State} (hs : s.Ready)
include hs

/-- The RAM-enable command of MBC1 and of MBC2, whose address bit 4 is clear (R111, R115). -/
theorem expands_ramEnable {p : Pseudo} {d : Byte} (hp : p.expand = [.write 0x0000 d.toNat]) (hm : s.cartBankMode ≠ .none) :
    Expands p s { s with
      ramBankingEnabled :=
        if d.toNat % 16 = 10 then true else if d.toNat % 16 = 0 then false else s.ramBankingEnabled } := by
  have hmode : s.cartBankMode = .mbc1 ∨ s.cartBankMode = .mbc2 := by
    revert hm
    cases s.cartBankMode <;> simp
  rcases hmode with hmode | hmode
  · have hd := decode_wrMbc1Ramen (a := 0x0000) (d := d) rfl
    exact expands_of_single hp (by rw [hmode]; exact hd) (exec_wrMbc1Ramen 0x0000 d hs)
  · have hd := decode_wrMbc2Ramen (a := 0x0000) (d := d) rfl
    exact expands_of_single (i := .wrMbc2Ramen 0x0000 d) hp (by rw [hmode]; exact hd) (exec_wrMbc1Ramen 0x0000 d hs)

section
variable (hm : s.cartBankMode = .mbc1) (n : Byte)
include hm

theorem expands_rommode_mbc1 : Expands .rommode s { s with romBankingModeActive := true, currentRAMBank := 0 } := by
  have hd := decode_wrMbc1Mode (a := 0x6000) (d := 0x00) rfl
  exact expands_of_single rfl (by rw [hm]; exact hd) (exec_wrMbc1Mode 0x6000 0x00 hs)

theorem expands_rammode_mbc1 : Expands .rammode s { s with romBankingModeActive := false } := by
  have hd := decode_wrMbc1Mode (a := 0x6000) (d := 0x01) rfl
  exact expands_of_single rfl (by rw [hm]; exact hd) (exec_wrMbc1Mode 0x6000 0x01 hs)

/-- RAMMODE's WRITE and then, in RAM banking mode, the WRITE of the RAM bank (R113, R114). -/
theorem expands_rambank_mbc1 :
    Expands (.rambank n) s { s with romBankingModeActive := false, currentRAMBank := BitVec.ofNat 2 (n.toNat % 4) } := by
  have hd := decode_wrMbc1Mode (a := 0x6000) (d := 0x01) rfl
  have hd' := decode_wrMbc1Hi (a := 0x4000) (d := n) rfl
  exact expands_of_pair (u := { s with romBankingModeActive := false, response := some .done }) rfl
    (by rw [hm]; exact hd) (by rw [hm]; exact hd')
    (fun inbox => exec_wrMbc1Mode (s := { s with inbox := inbox }) 0x6000 0x01 hs)
    (exec_wrMbc1Hi_ramBanking (s := { s with romBankingModeActive := false, response := some .done }) 0x4000 n hs rfl)

theorem expands_romlo_mbc1 :
    Expands (.romlo n) s
      { s with currentROMBank := BitVec.ofNat 8 (max 1 (s.currentROMBank.toNat / 32 * 32 + n.toNat % 32)) } := by
  have hd := decode_wrMbc1Romlo (a := 0x2000) (d := n) rfl
  exact expands_of_single rfl (by rw [hm]; exact hd) (exec_wrMbc1Romlo 0x2000 n hs)

theorem expands_romhi_mbc1 (hrom : s.romBankingModeActive = true) :
    Expands (.romhi n) s
      { s with currentROMBank := BitVec.ofNat 8 (max 1 (s.currentROMBank.toNat % 32 + n.toNat / 32 * 32)) } := by
  have hd := decode_wrMbc1Hi (a := 0x4000) (d := n) rfl
  exact expands_of_single rfl (by rw [hm]; exact hd) (exec_wrMbc1Hi_romBanking 0x4000 n hs hrom)

end

theorem expands_romlo_mbc2 (hm : s.cartBankMode = .mbc2) (n : Byte) :
    Expands (.romlo n) s { s with currentROMBank := BitVec.ofNat 8 (max 1 (n.toNat % 16)) } := by
  have hd := decode_wrMbc2Romlo (a := 0x2000) (d := n) rfl
  exact expands_of_single rfl (by rw [hm]; exact hd) (exec_wrMbc2Romlo 0x2000 n hs)

/-- A WRITE of TMC with the select of `f` (R143). -/
theorem expands_wrTmc {p : Pseudo} {d f : Byte} (hp : p.expand = [.write 0xFF07 d.toNat]) (hsel : d.toNat % 4 = f.toNat % 4)
    {c : Int} (hc : c = if f.toNat % 4 = s.tmc.toNat % 4 then s.timerCounter else freqTable (frequencySelect f)) :
    Expands p s { s with tmc := d, timerCounter := c } := by
  have hd : DecodesAlways (.write 0xFF07 d.toNat) (.wrTmc d) := decodesAlways_timerWrite (a := 0xFF07) (by simp)
  refine expands_of_single hp (hd _) ?_
  rw [exec_wrTmc hs, (frequencySelect_eq_iff d f).2 hsel, hc]
  simp only [frequencySelect_eq_iff]

theorem expands_divrst : Expands .divrst s { s with div := 0 } := by
  have hd : DecodesAlways (.write 0xFF04 (0x00 : Byte).toNat) (.wrDiv 0x00) := decodesAlways_timerWrite (a := 0xFF04) (by simp)
  exact expands_of_single rfl (hd _) (exec_wrDiv 0x00 hs)

end

/-- TSTOP's datum, the select alone (R91). -/
theorem toNat_select (f : Byte) : (f &&& 0x3).toNat = f.toNat % 4 := Nat.and_two_pow_sub_one_eq_mod f.toNat 2

/-- TSTART's datum, the enable bit over the select (R91). -/
theorem toNat_enable_select (f : Byte) : (0x04 ||| (f &&& 0x3)).toNat = 4 + f.toNat % 4 := by
  have hlow : f.toNat % 4 < 2 ^ 2 := by omega
  rw [BitVec.toNat_or, toNat_select]
  exact (Nat.two_pow_add_eq_or_of_lt hlow 1).symm

/-- Settles O58: each expansion decodes to the commands above, or is ignored. -/
theorem pseudoRequestsHaveTheirNamedEffects : Obligations.PseudoRequestsHaveTheirNamedEffects := by
  intro s n f hs
  refine ⟨fun hm => ⟨expands_ramEnable hs (d := 0x0A) rfl hm, expands_ramEnable hs (d := 0x00) rfl hm⟩,
    fun hm => ⟨expands_rommode_mbc1 hs hm, expands_rammode_mbc1 hs hm, expands_rambank_mbc1 hs hm n,
      expands_romlo_mbc1 hs hm n, expands_romhi_mbc1 hs hm n⟩,
    fun hm => ⟨expands_romlo_mbc2 hs hm n, expands_mbc2 hs hm n⟩, fun hm => expands_none hs hm n,
    fun c hc => ⟨?_, ?_⟩, expands_divrst hs⟩
  · have hdatum := toNat_enable_select f
    rw [← hdatum, BitVec.ofNat_toNat, BitVec.setWidth_eq]
    exact expands_wrTmc hs rfl (by omega) hc
  · have hdatum := toNat_select f
    rw [← hdatum, BitVec.ofNat_toNat, BitVec.setWidth_eq]
    exact expands_wrTmc hs rfl (by omega) hc

end Sys2Proof.Machine
end
